-- ==== Sys2Proof/Word.lean ====
section
/-! DEFINITION. The word types of the CHIP-8 core: an 8-bit byte (a V register, a memory cell, a timer), a 16-bit word
(pc, I, a stack entry, an instruction word) and the index of one of sixteen like things. -/

namespace Sys2Proof

/-- A V register, a memory cell, a timer or an immediate NN (R20, R28, R50). -/
abbrev Byte := BitVec 8

/-- pc, I, a stack entry or an instruction word (R25, R26, R27, R80). -/
abbrev Word := BitVec 16

/-- The index of a V register, V0 to VF: every value is legal (R20, R84). -/
abbrev RegIdx := Fin 16

/-- The index of a key, 0x0 to 0xF (R31, R103). -/
abbrev KeyIdx := Fin 16

end Sys2Proof
end

