-- ==== Sys2Proof/Syntax.lean ====
section
/-! DEFINITION. The instructions: one constructor for each of the 34 rows of spec/opcode_table.json (R2, R86), with the
decoded operands of R83 and R84. -/

namespace Sys2Proof

/-- The 34 instructions of R86. `x` and `y` name V registers (R84). `nn` is the immediate byte, `addr` the 12-bit address
already zero-extended to 16 bits, `rows` the 4-bit count N (R83). The names are the mnemonics of R89 with the operand form. -/
inductive Instr
  /-- 00E0 (CLS), R200. -/
  | cls
  /-- 00EE (RET), R162. -/
  | ret
  /-- 1NNN (JP nnn), R163. -/
  | jp (addr : Word)
  /-- 2NNN (CALL nnn), R164. -/
  | call (addr : Word)
  /-- 3XNN (SE Vx, nn), R165. -/
  | seImm (x : RegIdx) (nn : Byte)
  /-- 4XNN (SNE Vx, nn), R166. -/
  | sneImm (x : RegIdx) (nn : Byte)
  /-- 5XY0 (SE Vx, Vy), R167. -/
  | seReg (x y : RegIdx)
  /-- 6XNN (LD Vx, nn), R134. -/
  | ldImm (x : RegIdx) (nn : Byte)
  /-- 7XNN (ADD Vx, nn), R135. -/
  | addImm (x : RegIdx) (nn : Byte)
  /-- 8XY0 (LD Vx, Vy), R136. -/
  | ldReg (x y : RegIdx)
  /-- 8XY1 (OR Vx, Vy), R137. -/
  | orReg (x y : RegIdx)
  /-- 8XY2 (AND Vx, Vy), R138. -/
  | andReg (x y : RegIdx)
  /-- 8XY3 (XOR Vx, Vy), R139. -/
  | xorReg (x y : RegIdx)
  /-- 8XY4 (ADD Vx, Vy), R140. -/
  | addReg (x y : RegIdx)
  /-- 8XY5 (SUB Vx, Vy), R141. -/
  | subReg (x y : RegIdx)
  /-- 8XY6 (SHR Vx), R142. The Y digit is kept so that no bit of the word is lost; the instruction ignores it (R84, log 10). -/
  | shr (x y : RegIdx)
  /-- 8XY7 (SUBN Vx, Vy), R143. -/
  | subnReg (x y : RegIdx)
  /-- 8XYE (SHL Vx), R144. The Y digit is kept and ignored, as for 8XY6 (R84, log 10). -/
  | shl (x y : RegIdx)
  /-- 9XY0 (SNE Vx, Vy), R168. -/
  | sneReg (x y : RegIdx)
  /-- ANNN (LD I, nnn), R181. -/
  | ldI (addr : Word)
  /-- BNNN (JP V0, nnn), R169. -/
  | jpV0 (addr : Word)
  /-- CXNN (RND Vx, nn), R145. -/
  | rnd (x : RegIdx) (nn : Byte)
  /-- DXYN (DRW Vx, Vy, n), R201. -/
  | drw (x y : RegIdx) (rows : Nat)
  /-- EX9E (SKP Vx), R220. -/
  | skp (x : RegIdx)
  /-- EXA1 (SKNP Vx), R221. -/
  | sknp (x : RegIdx)
  /-- FX07 (LD Vx, DT), R223. -/
  | ldFromDt (x : RegIdx)
  /-- FX0A (LD Vx, K), R222. -/
  | ldKey (x : RegIdx)
  /-- FX15 (LD DT, Vx), R224. -/
  | ldDt (x : RegIdx)
  /-- FX18 (LD ST, Vx), R225. -/
  | ldSt (x : RegIdx)
  /-- FX1E (ADD I, Vx), R182. -/
  | addI (x : RegIdx)
  /-- FX29 (LD F, Vx), R183. -/
  | ldFont (x : RegIdx)
  /-- FX33 (LD B, Vx), R184. -/
  | ldBcd (x : RegIdx)
  /-- FX55 (LD [I], Vx), R185. -/
  | storeRegs (x : RegIdx)
  /-- FX65 (LD Vx, [I]), R186. -/
  | loadRegs (x : RegIdx)
  deriving DecidableEq, Repr

end Sys2Proof
end

