-- ==== Sys2Proof/WellFormed.lean ====
section
/-! DEFINITION. Which instruction terms an instruction word can stand for: an address operand fits the 12 bits of NNN and a
row count the 4 bits of N (R81, R83). Register indices and immediate bytes are right by their types. -/

namespace Sys2Proof

/-- An address operand fits the field NNN (R83). -/
def addrFits (a : Word) : Bool := a.toNat < 0x1000

/-- A row count fits the field N: "an unsigned count from 0 to 15" (R83). -/
def rowsFit (n : Nat) : Bool := n < 16

/-- The instruction is one that some instruction word encodes. -/
def Instr.wellFormed : Instr → Bool
  | .cls => true
  | .ret => true
  | .jp addr => addrFits addr
  | .call addr => addrFits addr
  | .seImm _ _ => true
  | .sneImm _ _ => true
  | .seReg _ _ => true
  | .ldImm _ _ => true
  | .addImm _ _ => true
  | .ldReg _ _ => true
  | .orReg _ _ => true
  | .andReg _ _ => true
  | .xorReg _ _ => true
  | .addReg _ _ => true
  | .subReg _ _ => true
  | .shr _ _ => true
  | .subnReg _ _ => true
  | .shl _ _ => true
  | .sneReg _ _ => true
  | .ldI addr => addrFits addr
  | .jpV0 addr => addrFits addr
  | .rnd _ _ => true
  | .drw _ _ rows => rowsFit rows
  | .skp _ => true
  | .sknp _ => true
  | .ldFromDt _ => true
  | .ldKey _ => true
  | .ldDt _ => true
  | .ldSt _ => true
  | .addI _ => true
  | .ldFont _ => true
  | .ldBcd _ => true
  | .storeRegs _ => true
  | .loadRegs _ => true

end Sys2Proof
end

