-- ==== Sys2Proof/Decode.lean ====
section
/-! DEFINITION. The decoder of 30_encoding.md (R80 to R88), total on every word and on any bytes, rejecting by name; after
it the encoder, written from the formats of R82, and the opcode table of R86 as mask and match pairs. -/

namespace Sys2Proof

/-- Why the decoder gives no instruction. -/
inductive DecodeReject
  /-- The word matches no pattern of R86: it is illegal (R87). -/
  | unknownOpcode (w : Word)
  /-- Fewer than two bytes were given; an instruction is always two bytes (R80). The core's fetch never does so (log 13). -/
  | tooFewBytes
  deriving DecidableEq, Repr

/-! The fields of an instruction word (R81, R83). -/

/-- op = w[15:12]. -/
def opField (w : Word) : Nat := (w.extractLsb' 12 4).toNat

/-- X = w[11:8], a register index. -/
def xField (w : Word) : RegIdx := (w.extractLsb' 8 4).toFin

/-- Y = w[7:4], a register index. -/
def yField (w : Word) : RegIdx := (w.extractLsb' 4 4).toFin

/-- N = w[3:0], an unsigned count. -/
def nField (w : Word) : Nat := (w.extractLsb' 0 4).toNat

/-- NN = w[7:0]. -/
def nnField (w : Word) : Byte := w.extractLsb' 0 8

/-- NNN = w[11:0], zero-extended to 16 bits. -/
def nnnField (w : Word) : Word := (w.extractLsb' 0 12).setWidth 16

/-- Family 8 dispatches on N (R85, R88). -/
def decode8 (w : Word) : Except DecodeReject Instr :=
  match nField w with
  | 0x0 => .ok (.ldReg (xField w) (yField w))
  | 0x1 => .ok (.orReg (xField w) (yField w))
  | 0x2 => .ok (.andReg (xField w) (yField w))
  | 0x3 => .ok (.xorReg (xField w) (yField w))
  | 0x4 => .ok (.addReg (xField w) (yField w))
  | 0x5 => .ok (.subReg (xField w) (yField w))
  | 0x6 => .ok (.shr (xField w) (yField w))
  | 0x7 => .ok (.subnReg (xField w) (yField w))
  | 0xE => .ok (.shl (xField w) (yField w))
  | _ => .error (.unknownOpcode w)

/-- Family E dispatches on NN (R85, R88). -/
def decodeE (w : Word) : Except DecodeReject Instr :=
  match (nnField w).toNat with
  | 0x9E => .ok (.skp (xField w))
  | 0xA1 => .ok (.sknp (xField w))
  | _ => .error (.unknownOpcode w)

/-- Family F dispatches on NN (R85, R88). -/
def decodeF (w : Word) : Except DecodeReject Instr :=
  match (nnField w).toNat with
  | 0x07 => .ok (.ldFromDt (xField w))
  | 0x0A => .ok (.ldKey (xField w))
  | 0x15 => .ok (.ldDt (xField w))
  | 0x18 => .ok (.ldSt (xField w))
  | 0x1E => .ok (.addI (xField w))
  | 0x29 => .ok (.ldFont (xField w))
  | 0x33 => .ok (.ldBcd (xField w))
  | 0x55 => .ok (.storeRegs (xField w))
  | 0x65 => .ok (.loadRegs (xField w))
  | _ => .error (.unknownOpcode w)

/-- Decode(w) of R88: dispatch on the top nibble, then on the low nibble or byte; strict (R85, D3). -/
def decode (w : Word) : Except DecodeReject Instr :=
  match opField w with
  | 0x0 =>
    if w = 0x00E0#16 then .ok .cls
    else if w = 0x00EE#16 then .ok .ret
    else .error (.unknownOpcode w)
  | 0x1 => .ok (.jp (nnnField w))
  | 0x2 => .ok (.call (nnnField w))
  | 0x3 => .ok (.seImm (xField w) (nnField w))
  | 0x4 => .ok (.sneImm (xField w) (nnField w))
  | 0x5 => if nField w = 0 then .ok (.seReg (xField w) (yField w)) else .error (.unknownOpcode w)
  | 0x6 => .ok (.ldImm (xField w) (nnField w))
  | 0x7 => .ok (.addImm (xField w) (nnField w))
  | 0x8 => decode8 w
  | 0x9 => if nField w = 0 then .ok (.sneReg (xField w) (yField w)) else .error (.unknownOpcode w)
  | 0xA => .ok (.ldI (nnnField w))
  | 0xB => .ok (.jpV0 (nnnField w))
  | 0xC => .ok (.rnd (xField w) (nnField w))
  | 0xD => .ok (.drw (xField w) (yField w) (nField w))
  | 0xE => decodeE w
  | 0xF => decodeF w
  | _ => .error (.unknownOpcode w)

/-- Two bytes as an instruction word, big-endian: the first byte is w[15:8] (R53). -/
def joinBytes (hi lo : Byte) : Word := hi ++ lo

/-- The byte of an instruction word that lies at the lower address, w[15:8] (R53). -/
def hiByte (w : Word) : Byte := w.extractLsb' 8 8

/-- The byte of an instruction word that lies at the higher address, w[7:0] (R53). -/
def loByte (w : Word) : Byte := w.extractLsb' 0 8

/-- The decoder on a list of bytes: it consumes exactly two (R80) and gives the instruction with the bytes that are left. -/
def decodeBytes : List Byte → Except DecodeReject (Instr × List Byte)
  | hi :: lo :: rest =>
    match decode (joinBytes hi lo) with
    | .ok i => .ok (i, rest)
    | .error e => .error e
  | _ => .error .tooFewBytes

/-! The encoder. -/

/-- Format A of R82: op, NNN. -/
def formatA (op : BitVec 4) (addr : Word) : Word := op ++ addr.setWidth 12

/-- Format B of R82: op, X, NN. Format K is the same layout with a function byte in place of the immediate. -/
def formatB (op : BitVec 4) (x : RegIdx) (nn : Byte) : Word := op ++ (BitVec.ofFin x : BitVec 4) ++ nn

/-- Formats R and D of R82: op, X, Y and a function nibble or a row count. -/
def formatR (op : BitVec 4) (x y : RegIdx) (n : BitVec 4) : Word :=
  op ++ (BitVec.ofFin x : BitVec 4) ++ (BitVec.ofFin y : BitVec 4) ++ n

/-- The instruction word of a well-formed instruction, by the patterns of R86. -/
def encode : Instr → Word
  | .cls => 0x00E0#16
  | .ret => 0x00EE#16
  | .jp addr => formatA 0x1#4 addr
  | .call addr => formatA 0x2#4 addr
  | .seImm x nn => formatB 0x3#4 x nn
  | .sneImm x nn => formatB 0x4#4 x nn
  | .seReg x y => formatR 0x5#4 x y 0x0#4
  | .ldImm x nn => formatB 0x6#4 x nn
  | .addImm x nn => formatB 0x7#4 x nn
  | .ldReg x y => formatR 0x8#4 x y 0x0#4
  | .orReg x y => formatR 0x8#4 x y 0x1#4
  | .andReg x y => formatR 0x8#4 x y 0x2#4
  | .xorReg x y => formatR 0x8#4 x y 0x3#4
  | .addReg x y => formatR 0x8#4 x y 0x4#4
  | .subReg x y => formatR 0x8#4 x y 0x5#4
  | .shr x y => formatR 0x8#4 x y 0x6#4
  | .subnReg x y => formatR 0x8#4 x y 0x7#4
  | .shl x y => formatR 0x8#4 x y 0xE#4
  | .sneReg x y => formatR 0x9#4 x y 0x0#4
  | .ldI addr => formatA 0xA#4 addr
  | .jpV0 addr => formatA 0xB#4 addr
  | .rnd x nn => formatB 0xC#4 x nn
  | .drw x y rows => formatR 0xD#4 x y (BitVec.ofNat 4 rows)
  | .skp x => formatB 0xE#4 x 0x9E#8
  | .sknp x => formatB 0xE#4 x 0xA1#8
  | .ldFromDt x => formatB 0xF#4 x 0x07#8
  | .ldKey x => formatB 0xF#4 x 0x0A#8
  | .ldDt x => formatB 0xF#4 x 0x15#8
  | .ldSt x => formatB 0xF#4 x 0x18#8
  | .addI x => formatB 0xF#4 x 0x1E#8
  | .ldFont x => formatB 0xF#4 x 0x29#8
  | .ldBcd x => formatB 0xF#4 x 0x33#8
  | .storeRegs x => formatB 0xF#4 x 0x55#8
  | .loadRegs x => formatB 0xF#4 x 0x65#8

/-! The opcode table. -/

/-- A row of the opcode table: a word is the row's instruction when its bits under `mask` are `pattern` (R85, R86). -/
structure OpcodeRow where
  mnemonic : String
  mask : Word
  pattern : Word
  deriving DecidableEq, Repr

/-- The word matches the row. -/
def OpcodeRow.matchesWord (r : OpcodeRow) (w : Word) : Bool := w &&& r.mask = r.pattern

/-- The opcode map of R86, with each rule's "match … mask …". -/
def opcodeTable : List OpcodeRow :=
  [ ⟨"00E0", 0xFFFF, 0x00E0⟩, ⟨"00EE", 0xFFFF, 0x00EE⟩, ⟨"1NNN", 0xF000, 0x1000⟩, ⟨"2NNN", 0xF000, 0x2000⟩,
    ⟨"3XNN", 0xF000, 0x3000⟩, ⟨"4XNN", 0xF000, 0x4000⟩, ⟨"5XY0", 0xF00F, 0x5000⟩, ⟨"6XNN", 0xF000, 0x6000⟩,
    ⟨"7XNN", 0xF000, 0x7000⟩, ⟨"8XY0", 0xF00F, 0x8000⟩, ⟨"8XY1", 0xF00F, 0x8001⟩, ⟨"8XY2", 0xF00F, 0x8002⟩ ] ++
  [ ⟨"8XY3", 0xF00F, 0x8003⟩, ⟨"8XY4", 0xF00F, 0x8004⟩, ⟨"8XY5", 0xF00F, 0x8005⟩, ⟨"8XY6", 0xF00F, 0x8006⟩,
    ⟨"8XY7", 0xF00F, 0x8007⟩, ⟨"8XYE", 0xF00F, 0x800E⟩, ⟨"9XY0", 0xF00F, 0x9000⟩, ⟨"ANNN", 0xF000, 0xA000⟩,
    ⟨"BNNN", 0xF000, 0xB000⟩, ⟨"CXNN", 0xF000, 0xC000⟩, ⟨"DXYN", 0xF000, 0xD000⟩, ⟨"EX9E", 0xF0FF, 0xE09E⟩ ] ++
  [ ⟨"EXA1", 0xF0FF, 0xE0A1⟩, ⟨"FX07", 0xF0FF, 0xF007⟩, ⟨"FX0A", 0xF0FF, 0xF00A⟩, ⟨"FX15", 0xF0FF, 0xF015⟩,
    ⟨"FX18", 0xF0FF, 0xF018⟩, ⟨"FX1E", 0xF0FF, 0xF01E⟩, ⟨"FX29", 0xF0FF, 0xF029⟩, ⟨"FX33", 0xF0FF, 0xF033⟩,
    ⟨"FX55", 0xF0FF, 0xF055⟩, ⟨"FX65", 0xF0FF, 0xF065⟩ ]

/-- The mnemonic of an instruction as spec/opcode_table.json spells it. -/
def Instr.mnemonic : Instr → String
  | .cls => "00E0"
  | .ret => "00EE"
  | .jp _ => "1NNN"
  | .call _ => "2NNN"
  | .seImm _ _ => "3XNN"
  | .sneImm _ _ => "4XNN"
  | .seReg _ _ => "5XY0"
  | .ldImm _ _ => "6XNN"
  | .addImm _ _ => "7XNN"
  | .ldReg _ _ => "8XY0"
  | .orReg _ _ => "8XY1"
  | .andReg _ _ => "8XY2"
  | .xorReg _ _ => "8XY3"
  | .addReg _ _ => "8XY4"
  | .subReg _ _ => "8XY5"
  | .shr _ _ => "8XY6"
  | .subnReg _ _ => "8XY7"
  | .shl _ _ => "8XYE"
  | .sneReg _ _ => "9XY0"
  | .ldI _ => "ANNN"
  | .jpV0 _ => "BNNN"
  | .rnd _ _ => "CXNN"
  | .drw _ _ _ => "DXYN"
  | .skp _ => "EX9E"
  | .sknp _ => "EXA1"
  | .ldFromDt _ => "FX07"
  | .ldKey _ => "FX0A"
  | .ldDt _ => "FX15"
  | .ldSt _ => "FX18"
  | .addI _ => "FX1E"
  | .ldFont _ => "FX29"
  | .ldBcd _ => "FX33"
  | .storeRegs _ => "FX55"
  | .loadRegs _ => "FX65"

/-- The instruction the decoder reads from the word `w`, numbered as spec/opcode_table.json numbers it: one 16-bit word,
bit 0 its least significant bit, the bits above `nbits` zero. The two bytes go to the decoder in the hardware's order (R53). -/
def decodeTableWord (nbits w : Nat) : Option Instr :=
  let word : Word := BitVec.ofNat 16 (w % 2 ^ nbits)
  match decodeBytes [hiByte word, loByte word] with
  | .ok (i, _) => some i
  | .error _ => none

end Sys2Proof
end

