-- ==== Sys2Proof/Config.lean ====
section
/-! DEFINITION. What is fixed for a model instance: the four configuration parameters of 00_scope.md R9 with their
alternatives, the fixed sizes and places of R8, and the free values: the random byte of a STEP (R104), and the word that FAULT
records for a fetch that reads no whole word (R51, log 20). -/

namespace Sys2Proof

/-- ADDR_OOB (R9, R51): what the memory address unit does with an address value of 4096 or more. `wrap` is the hardware. -/
inductive AddrOob
  | wrap
  | fault
  deriving DecidableEq, Repr

/-- SUB_FLAG_8XY5 (R9, R141): what 8XY5 does to VF when V[x] ≤ V[y]. `unchanged` is the hardware. -/
inductive SubFlag
  | unchanged
  | zero
  deriving DecidableEq, Repr

/-- DRAW_EDGE (R9, R202): what DXYN does with a pixel beyond the 64 × 32 grid. `wrap` is the hardware. -/
inductive DrawEdge
  | wrap
  | clip
  deriving DecidableEq, Repr

/-- The parameters of R9. They are fixed per model instance (R36). The defaults are Machine.hardwareParams. -/
structure Params where
  addrOob : AddrOob
  subFlag8XY5 : SubFlag
  drawEdge : DrawEdge
  font : Vector Byte 80
  deriving DecidableEq, Repr

namespace Config

/-- MEM_SIZE (R8): the number of memory cells. -/
abbrev memSize : Nat := 4096

/-- RESET_PC and PROGRAM_BASE (R8). -/
abbrev programBase : Nat := 0x200

/-- PROGRAM_CAPACITY (R8, R66): 4096 − 0x200. -/
abbrev programCapacity : Nat := 3584

/-- FONT_BASE (R8, R56). -/
abbrev fontBase : Nat := 0x050

/-- The number of font bytes, FONT_GLYPHS × GLYPH_BYTES (R8). -/
abbrev fontSize : Nat := 80

/-- The random byte of a STEP whose byte the host's list does not give (R104, D18): a FREE VALUE, one for each value of
the counter State.env.draws. Nothing constrains it (log 1). -/
opaque freeRnd : Nat → Byte

/-- The instruction word that FAULT records when the fetch itself ends in ProgramError, where no word was fetched and R51 and
R241 state none: a FREE VALUE, one for each value of the counter State.env.draws. It arises under ADDR_OOB = fault only, which
is not the hardware (log 20). -/
opaque freeWord : Nat → Word

end Config
end Sys2Proof
end

