-- ==== Sys2Proof/Machine/Parameters.lean ====
section
/-! DEFINITION. The default values of the parameters of R9: the hardware this spec describes. -/

namespace Sys2Proof.Machine

/-- The default FONT (R56, D30): glyph d is the five bytes from index 5·d. The bytes are the conventional CHIP-8 font, which
the spec marks as general knowledge (PRESUMED, log 8). -/
def conventionalFont : Vector Byte 80 :=
  (#v[0xF0, 0x90, 0x90, 0x90, 0xF0, 0x20, 0x60, 0x20, 0x20, 0x70] : Vector Byte 10) ++
  (#v[0xF0, 0x10, 0xF0, 0x80, 0xF0, 0xF0, 0x10, 0xF0, 0x10, 0xF0] : Vector Byte 10) ++
  (#v[0x90, 0x90, 0xF0, 0x10, 0x10, 0xF0, 0x80, 0xF0, 0x10, 0xF0] : Vector Byte 10) ++
  (#v[0xF0, 0x80, 0xF0, 0x90, 0xF0, 0xF0, 0x10, 0x20, 0x40, 0x40] : Vector Byte 10) ++
  (#v[0xF0, 0x90, 0xF0, 0x90, 0xF0, 0xF0, 0x90, 0xF0, 0x10, 0xF0] : Vector Byte 10) ++
  (#v[0xF0, 0x90, 0xF0, 0x90, 0x90, 0xE0, 0x90, 0xE0, 0x90, 0xE0] : Vector Byte 10) ++
  (#v[0xF0, 0x80, 0x80, 0x80, 0xF0, 0xE0, 0x90, 0x90, 0x90, 0xE0] : Vector Byte 10) ++
  (#v[0xF0, 0x80, 0xF0, 0x80, 0xF0, 0xF0, 0x80, 0xF0, 0x80, 0x80] : Vector Byte 10)

/-- The defaults of R9: `ADDR_OOB = wrap`, `SUB_FLAG_8XY5 = unchanged`, `DRAW_EDGE = wrap`, the default `FONT`. -/
def hardwareParams : Params :=
  { addrOob := .wrap, subFlag8XY5 := .unchanged, drawEdge := .wrap, font := conventionalFont }

end Sys2Proof.Machine
end

