-- ==== Sys2Proof/Machine/State.lean ====
section
/-! DEFINITION. The state of the core (10_state.md), the reasons a step can stop, and the state after RESET (R38). -/

namespace Sys2Proof.Machine

/-- MODE (R33): a run state, not a privilege level. Its 1-bit code is Mode.code in Machine/Status.lean. -/
inductive Mode
  | running
  | awaitingKey
  deriving DecidableEq, Repr

/-- FAULT.kind (R32, R240). `noFault` is NONE. The 2-bit codes are FaultKind.code in Machine/Status.lean. `programError v` is the
model-only outcome of ADDR_OOB = fault at the address value v, which copies the latch of R241 (R51, log 3). -/
inductive FaultKind
  | noFault
  | stackOverflow
  | stackUnderflow
  | unknownOpcode
  | programError (v : Nat)
  deriving DecidableEq, Repr

/-- The fault latch FAULT (R34): the first fault since reset, with the address and the word of its instruction. -/
structure FaultLatch where
  kind : FaultKind
  pc : Word
  opcode : Word
  deriving DecidableEq, Repr

/-- The host's transactions (R100). STEP carries its random byte (R104), LOAD the image (R66), TICK the number of ticks. -/
inductive Transaction
  | reset
  | load (image : List Byte)
  | setKey (k : KeyIdx) (pressed : Bool)
  | step (rnd : Byte)
  | tick (n : Nat)
  | readFb
  | clearRedraw
  | readDt
  | readSt
  | readStatus
  deriving DecidableEq, Repr

/-- What is not state of the core (R36) and the one-argument step must hold: parameters and inputs. The model's own. -/
structure Env where
  /-- The parameters of R9. Nothing writes them (log 2). -/
  params : Params
  /-- The transactions the host issues next, oldest first (log 5). -/
  inbox : List Transaction
  /-- The random byte of the STEP in progress (R104). A free value: every STEP sets it first (log 1). -/
  rnd : Byte
  /-- Which free value is drawn next: the byte of a STEP outside the inbox, the word of a fetch that failed (log 1, log 20). -/
  draws : Nat
  deriving DecidableEq, Repr

/-- The framebuffer (R29): 32 rows of 64 pixels. -/
abbrev Framebuffer := Vector (Vector Bool 64) 32

/-- The state: every element of 10_state.md, and `env`. -/
structure State where
  /-- V0 to VF (R20); VF, the flag register, is index 15 (R23). -/
  v : Vector Byte 16
  /-- The index register I, not masked (R25). -/
  i : Word
  /-- The program counter: the next instruction's address between steps, the executing one's plus 2 during execute (R26). -/
  pc : Word
  /-- The stack depth SP, 0 to 16 (R27). -/
  sp : Fin 17
  /-- The call stack S[0] to S[15]; entries at or above SP are stale (R27, R37). -/
  stack : Vector Word 16
  /-- The delay timer DT (R28). -/
  dt : Byte
  /-- The sound timer ST (R28). -/
  st : Byte
  /-- The framebuffer FB, by row and then column (R29). -/
  fb : Framebuffer
  /-- REDRAW (R30). -/
  redraw : Bool
  /-- KEY[0] to KEY[15], true when held (R31). -/
  keys : Vector Bool 16
  /-- MODE (R33). -/
  mode : Mode
  /-- FAULT (R34). -/
  fault : FaultLatch
  /-- Memory (R35, R50): the cells that differ from the reset contents, addresses rising (Machine/Memory.lean). -/
  mem : List Host.Cell
  /-- Parameters and inputs, not the core's state (R36). -/
  env : Env
  deriving DecidableEq, Repr

/-- Why the machine stops with a fault. -/
inductive Fault
  /-- Raised by `step` alone, when FAULT.kind is not NONE and the host has no transaction left to issue: only STEPs would follow,
  each of which changes nothing (R109), and a model treats that state as a fault outcome (R119). Safe (log 4). -/
  | faulted (kind : FaultKind) (pc opcode : Word)
  deriving DecidableEq, Repr

/-- Why the machine refuses. -/
inductive Refusal
  /-- Raised by `exec` for an instruction that has no meaning yet. Safe. No arm of this model does. -/
  | notModelled (mnemonic : String)
  deriving DecidableEq, Repr

/-- The state right after RESET (R38, R270). `mem` lists nothing: memory reads as the reset contents, the font at 0x050 to
0x09F and zero elsewhere. `env` holds the default parameters and no host transaction; its `rnd` and `draws` are free values
to which no statement may hold on (log 1, log 5). -/
def State.reset : State :=
  { v := Vector.replicate 16 0
    i := 0
    pc := 0x0200
    sp := 0
    stack := Vector.replicate 16 0
    dt := 0
    st := 0
    fb := Vector.replicate 32 (Vector.replicate 64 false)
    redraw := false
    keys := Vector.replicate 16 false
    mode := .running
    fault := { kind := .noFault, pc := 0, opcode := 0 }
    mem := []
    env := { params := hardwareParams, inbox := [], rnd := 0, draws := 0 } }

end Sys2Proof.Machine
end

