-- ==== Sys2Proof/Machine/Memory.lean ====
section
/-! DEFINITION. Memory (20_memory.md): the reset contents, the canonical list of cells, one-byte reads and writes, and runs of
bytes through the memory address unit (R51). -/

namespace Sys2Proof.Machine

/-- What a cell that is not listed reads as: its contents after RESET, the font at 0x050 to 0x09F and zero elsewhere (R38,
R55, R56). -/
def resetByte (font : Vector Byte 80) (a : Nat) : Byte :=
  if h : Config.fontBase ≤ a ∧ a - Config.fontBase < Config.fontSize then font[a - Config.fontBase]'h.2 else 0

/-- A list of cells. -/
abbrev Memory := List Host.Cell

/-- The one canonical form: addresses strictly rising, all of them cells of the memory (R50), and no cell listed with the
byte it would read as unlisted. -/
abbrev Memory.wf (font : Vector Byte 80) (m : Memory) : Prop :=
  m.Pairwise (fun c d => c.1 < d.1) ∧ ∀ c ∈ m, c.1 < Config.memSize ∧ c.2 ≠ resetByte font c.1

/-- The byte of cell `a`. -/
def Memory.read (font : Vector Byte 80) : Memory → Nat → Byte
  | [], a => resetByte font a
  | c :: rest, a => if c.1 = a then c.2 else Memory.read font rest a

/-- Put cell `a` with byte `b` before the cells of `rest`, unless it would read as `b` unlisted. -/
def Memory.consCell (font : Vector Byte 80) (a : Nat) (b : Byte) (rest : Memory) : Memory :=
  if b = resetByte font a then rest else (a, b) :: rest

/-- Memory with byte `b` in cell `a`, in canonical form. -/
def Memory.write (font : Vector Byte 80) : Memory → Nat → Byte → Memory
  | [], a, b => Memory.consCell font a b []
  | c :: rest, a, b =>
    if a < c.1 then Memory.consCell font a b (c :: rest)
    else if a = c.1 then Memory.consCell font a b rest
    else c :: Memory.write font rest a b

/-- Addr(v) = v mod 4096, the low 12 bits (R51). Under ADDR_OOB = fault an access with v ≥ 4096 has stopped before. -/
def addrOf (v : Nat) : Nat := v % Config.memSize

/-- Write the bytes to the address values `base`, `base + 1`, … in that order (R12, R51). -/
def Memory.writeBytes (font : Vector Byte 80) (m : Memory) (base : Nat) : List Byte → Memory
  | [] => m
  | b :: rest => Memory.writeBytes font (Memory.write font m (addrOf base) b) (base + 1) rest

/-- The `n` bytes at the address values `base`, `base + 1`, … (R12, R51). -/
def Memory.readBytes (font : Vector Byte 80) (m : Memory) (base : Nat) : Nat → List Byte
  | 0 => []
  | n + 1 => Memory.read font m (addrOf base) :: Memory.readBytes font m (base + 1) n

/-- The first of the address values `base`, …, `base + n − 1` that the address unit faults on: none under ADDR_OOB = wrap
(R51), the first one of 4096 or more under ADDR_OOB = fault. -/
def firstOutOfRange (p : AddrOob) (base : Nat) : Nat → Option Nat
  | 0 => none
  | n + 1 =>
    match p with
    | .wrap => none
    | .fault => if Config.memSize ≤ base then some base else firstOutOfRange p (base + 1) n

end Sys2Proof.Machine
end

