-- ==== Sys2Proof/Machine/Status.lean ====
section
/-! DEFINITION. The numeric codes of MODE and FAULT.kind (R32, R240), and the halt test (R34, R109). -/

namespace Sys2Proof.Machine

/-- MODE's code: 0 = RUNNING, 1 = AWAITING-KEY (R32). -/
def Mode.code : Mode → BitVec 1
  | .running => 0
  | .awaitingKey => 1

/-- FAULT.kind's code: 0 = NONE, 1 = StackOverflow, 2 = StackUnderflow, 3 = UnknownOpcode (R32, R240). The model-only
ProgramError has none (R51, log 3). -/
def FaultKind.code : FaultKind → Option (BitVec 2)
  | .noFault => some 0
  | .stackOverflow => some 1
  | .stackUnderflow => some 2
  | .unknownOpcode => some 3
  | .programError _ => none

/-- FAULT after reset (R38). -/
def FaultLatch.none : FaultLatch := { kind := .noFault, pc := 0, opcode := 0 }

/-- The core is halted: FAULT.kind ≠ NONE (R34). -/
def State.halted (s : State) : Bool := decide (s.fault.kind ≠ .noFault)

end Sys2Proof.Machine
end

