-- ==== Sys2Proof/Machine/Ops.lean ====
section
/-! DEFINITION. The named operations over the state that the meanings share: register file, memory, pc, stack controller,
the completion of a step (R117), and taking a fault (R241). There is no return from a fault: only RESET clears it (R248). -/

namespace Sys2Proof.Machine

/-- What a meaning answers. -/
abbrev Result := Host.Outcome State Fault Refusal

/-- VF's index (R23). -/
abbrev flagReg : RegIdx := 15

/-! The register file (R20, R21). -/

/-- V[x]. -/
def State.reg (s : State) (x : RegIdx) : Byte := s.v[x]

/-- V[x] <- b. -/
def State.setReg (s : State) (x : RegIdx) (b : Byte) : State := { s with v := s.v.set x b x.isLt }

/-- Load V[r], V[r + 1], … with the bytes in order; there is no register past VF (R186). -/
def loadRegFile (v : Vector Byte 16) (r : Nat) : List Byte → Vector Byte 16
  | [] => v
  | b :: rest => loadRegFile (v.setIfInBounds r b) (r + 1) rest

/-- V[0], …, V[x] <- the bytes (R186). -/
def State.setRegs (s : State) (bytes : List Byte) : State := { s with v := loadRegFile s.v 0 bytes }

/-- The bytes V[0] to V[x], in order (R185). -/
def State.regsUpTo (s : State) (x : RegIdx) : List Byte := s.v.toList.take (x.val + 1)

/-! Index register, timers, screen. -/

/-- I <- w. -/
def State.setI (s : State) (w : Word) : State := { s with i := w }

/-- DT <- b. -/
def State.setDt (s : State) (b : Byte) : State := { s with dt := b }

/-- ST <- b. -/
def State.setSt (s : State) (b : Byte) : State := { s with st := b }

/-- FB <- fb; REDRAW <- 1 (R200, R201, R204). -/
def State.setScreen (s : State) (fb : Framebuffer) : State := { s with fb := fb, redraw := true }

/-- MODE <- m (R117). -/
def State.setMode (s : State) (m : Mode) : State := { s with mode := m }

/-! Program counter (R111, R112, R118): all arithmetic is modulo 2^16. -/

/-- pc <- w. -/
def State.setPc (s : State) (w : Word) : State := { s with pc := w }

/-- The fetch advance: pc <- (a + 2) mod 2^16 (R111). -/
def State.advance (s : State) : State := s.setPc (s.pc + 2)

/-- Skip: pc <- (pc + 2) mod 2^16 (R112). -/
def State.skip (s : State) : State := s.setPc (s.pc + 2)

/-- The re-fetch of FX0A: pc <- (pc − 2) mod 2^16 (R222). -/
def State.refetch (s : State) : State := s.setPc (s.pc - 2)

/-- The address a of the executing instruction: during execute, pc is a + 2 modulo 2^16 (R26; DEDUCED, log 6). -/
def State.insnAddr (s : State) : Word := s.pc - 2

/-! Memory, through the address unit. -/

/-- The byte of cell `a`, 0 ≤ a < 4096. -/
def State.cell (s : State) (a : Nat) : Byte := Memory.read s.env.params.font s.mem a

/-- MemRead(v, 1) (R12, R51). -/
def State.memRead (s : State) (v : Nat) : Byte := s.cell (addrOf v)

/-- MemRead at `base`, …, `base + n − 1`. -/
def State.memReadBytes (s : State) (base n : Nat) : List Byte := Memory.readBytes s.env.params.font s.mem base n

/-- MemWrite of the bytes at `base`, `base + 1`, … (R12, R51). -/
def State.memWriteBytes (s : State) (base : Nat) (bytes : List Byte) : State :=
  { s with mem := Memory.writeBytes s.env.params.font s.mem base bytes }

/-! The stack controller. -/

/-- S <- stack; SP <- sp. -/
def State.setStack (s : State) (stack : Vector Word 16) (sp : Fin 17) : State := { s with stack := stack, sp := sp }

/-- Push (R160): none when SP = 16, with no stack state changed. -/
def State.push (s : State) (w : Word) : Option State :=
  if h : s.sp.val < 16 then
    some (s.setStack (s.stack.set s.sp.val w h) ⟨s.sp.val + 1, by omega⟩)
  else none

/-- Pop (R161): none when SP = 0; else S[SP − 1] and the state with SP one less. The entry keeps its value (R37). -/
def State.pop (s : State) : Option (Word × State) :=
  if h : 0 < s.sp.val then
    some (s.stack[s.sp.val - 1], s.setStack s.stack ⟨s.sp.val - 1, by omega⟩)
  else none

/-! The end of a step. -/

/-- A completed instruction other than a blocked FX0A: MODE <- RUNNING (R116, R117). -/
def complete (s : State) : Result := .next (s.setMode .running)

/-- A blocked FX0A: MODE <- AWAITING-KEY (R117, R222). -/
def await (s : State) : Result := .next (s.setMode .awaitingKey)

/-- Raising a fault, R241: FAULT <- (kind, a, w) and MODE <- RUNNING. The fetch advance of pc, made before, stays, and
nothing else changes (R245). 2NNN, 00EE, the decode stage and an access that fails under ADDR_OOB = fault call it. -/
def raiseFault (kind : FaultKind) (w : Word) (s : State) : State :=
  { s with fault := { kind := kind, pc := s.insnAddr, opcode := w }, mode := .running }

/-- ProgramError(v) of the fetch, under ADDR_OOB = fault only: the latch of R241 with no word fetched, so FAULT records a free
word, and before the fetch advance, so pc stays (R51, R110, R111, log 20). -/
def raiseFetchFault (v : Nat) (s : State) : State :=
  { s with
    fault := { kind := .programError v, pc := s.pc, opcode := Config.freeWord s.env.draws }
    mode := .running
    env := { s.env with draws := s.env.draws + 1 } }

/-! Accesses that the address unit may refuse (R51). -/

/-- Run `k` unless the address unit faults on one of the `n` accesses from `base`, and then end in the state that `stop` gives
for the first address value at fault. Under the hardware's ADDR_OOB = wrap it never does (R51). -/
def guardAccess (s : State) (base n : Nat) (stop : Nat → State) (k : Result) : Result :=
  match firstOutOfRange s.env.params.addrOob base n with
  | some v => .next (stop v)
  | none => k

/-- The number of cells an instruction accesses from I (R58). -/
def dataCells : Instr → Nat
  | .drw _ _ rows => rows
  | .ldBcd _ => 3
  | .storeRegs x => x.val + 1
  | .loadRegs x => x.val + 1
  | .cls | .ret | .jp _ | .call _ | .seImm _ _ | .sneImm _ _ | .seReg _ _ | .ldImm _ _ | .addImm _ _ | .ldReg _ _
  | .orReg _ _ | .andReg _ _ | .xorReg _ _ | .addReg _ _ | .subReg _ _ | .shr _ _ | .subnReg _ _ | .shl _ _ | .sneReg _ _
  | .ldI _ | .jpV0 _ | .rnd _ _ | .skp _ | .sknp _ | .ldFromDt _ | .ldKey _ | .ldDt _ | .ldSt _ | .addI _ | .ldFont _ => 0

/-- Run `k`, the effect of `i`, unless one of its accesses from I fails: then ProgramError(v) is raised as R241 raises a fault,
and the instruction makes no other write (R51, log 3). -/
def guardData (i : Instr) (s : State) (k : Result) : Result :=
  guardAccess s s.i.toNat (dataCells i) (fun v => raiseFault (.programError v) (encode i) s) k

end Sys2Proof.Machine
end

