-- ==== Sys2Proof/Machine/Flags.lean ====
section
/-! DEFINITION. Every flag the spec computes (R23, R132, R146) and the write order of flag and result (R131). A flag is
exactly 0x00 or 0x01. Operands are taken as naturals, the exact result is formed, and the result is narrowed at the end. -/

namespace Sys2Proof.Machine

/-- A flag as a byte: 0x01 or 0x00 (R132). -/
def flagByte (b : Bool) : Byte := if b then 0x01 else 0x00

/-- Carry of a + b: bit 8 of the sum, set when a + b > 255 (R130, R132, R140). -/
def carryFlag (a b : Byte) : Byte := flagByte (decide (255 < a.toNat + b.toNat))

/-- No borrow in p − q, strict: 1 when p > q (R132, R141, R143). -/
def noBorrowFlag (p q : Byte) : Byte := flagByte (decide (q.toNat < p.toNat))

/-- The bit a right shift moves out, bit 0 (R142). -/
def shiftOutRight (a : Byte) : Byte := flagByte (a.getLsbD 0)

/-- The bit a left shift moves out, bit 7 (R144, D6). -/
def shiftOutLeft (a : Byte) : Byte := flagByte (a.getLsbD 7)

/-- What 8XY5 writes to VF (R141): 1 when a > b; else nothing under SUB_FLAG_8XY5 = unchanged, the hardware, and 0 under
`zero`. -/
def subFlagWrite (p : SubFlag) (a b : Byte) : Option Byte :=
  if b.toNat < a.toNat then some 0x01
  else
    match p with
    | .unchanged => none
    | .zero => some 0x00

/-- VF first, where there is a flag to write, and then V[x] (R131): with x = 0xF the result lands last. -/
def State.setFlagThenReg (s : State) (flag : Option Byte) (x : RegIdx) (result : Byte) : State :=
  match flag with
  | some f => (s.setReg flagReg f).setReg x result
  | none => s.setReg x result

end Sys2Proof.Machine
end

