-- ==== Sys2Proof/Machine/Operands.lean ====
section
/-! DEFINITION. Every operand form of the instructions beyond a plain register or immediate: the ALU's results (R130), the
key test (R226) and the lowest held key (R222), the glyph address (R183), decimal digits (R184), the offset jump (R169), and
the pixel positions of a sprite (R202, R203). -/

namespace Sys2Proof.Machine

/-! ALU results (R130): exact in the naturals, narrowed to 8 bits at the end. -/

/-- (a + b) mod 256. -/
def aluAdd (a b : Byte) : Byte := BitVec.ofNat 8 (a.toNat + b.toNat)

/-- (p − q) mod 256. -/
def aluSub (p q : Byte) : Byte := BitVec.ofNat 8 (p.toNat + 256 - q.toNat)

/-- a >> 1, bit 7 of the result 0 (R142). -/
def aluShr (a : Byte) : Byte := a >>> 1

/-- (a << 1) mod 256, bit 0 of the result 0 (R144). -/
def aluShl (a : Byte) : Byte := a <<< 1

/-! Addresses. -/

/-- zext_16(nnn) + zext_16(V0), not masked (R169, D7). For a 12-bit nnn the sum is at most 0x10FE. -/
def offsetTarget (addr : Word) (o : Byte) : Word := addr + o.setWidth 16

/-- (I + v) mod 2^16 (R182). -/
def indexPlus (i : Word) (v : Byte) : Word := i + v.setWidth 16

/-- 0x050 + 5 × the low hex digit (R183, D9). -/
def glyphAddr (v : Byte) : Word := BitVec.ofNat 16 (Config.fontBase + 5 * (v.toNat % 16))

/-- The hundreds, tens and ones digits (R184). -/
def bcdDigits (v : Byte) : List Byte :=
  [BitVec.ofNat 8 (v.toNat / 100), BitVec.ofNat 8 (v.toNat / 10 % 10), BitVec.ofNat 8 (v.toNat % 10)]

/-! Keys. -/

/-- Held(v) (R226): KEY[v] for v ≤ 0x0F, and false for v ≥ 0x10, since no such key exists (D10). -/
def State.held (s : State) (v : Byte) : Bool := if h : v.toNat < 16 then s.keys[v.toNat] else false

/-- min of the keys that are held, if any is (R222). -/
def State.lowestHeld (s : State) : Option KeyIdx := (List.finRange 16).find? (fun k => s.keys[k])

/-! Pixels. -/

/-- Visible and Pos of R202: the pixel a sprite position composes onto, as row and column. Under DRAW_EDGE = wrap, the
hardware, coordinates are taken modulo 64 and 32; under `clip` a position outside the grid has none. -/
def pixelAt (edge : DrawEdge) (px py : Nat) : Option (Fin 32 × Fin 64) :=
  match edge with
  | .wrap => some (⟨py % 32, Nat.mod_lt _ (by decide)⟩, ⟨px % 64, Nat.mod_lt _ (by decide)⟩)
  | .clip => if h : py < 32 ∧ px < 64 then some (⟨py, h.1⟩, ⟨px, h.2⟩) else none

end Sys2Proof.Machine
end

