-- ==== Sys2Proof/Machine/Alu.lean ====
section
/-! DEFINITION. The register file and ALU instructions (41_alu.md). Each meaning runs at pc = a + 2, reads every operand
before its first write (R114), and completes (R117). -/

namespace Sys2Proof.Machine

/-- 6XNN (R134): V[x] <- nn. -/
def execLdImm (x : RegIdx) (nn : Byte) (s : State) : Result := complete (s.setReg x nn)

/-- 7XNN (R135): V[x] <- (V[x] + nn) mod 256, no flag. -/
def execAddImm (x : RegIdx) (nn : Byte) (s : State) : Result := complete (s.setReg x (aluAdd (s.reg x) nn))

/-- 8XY0 (R136): V[x] <- V[y]. -/
def execLdReg (x y : RegIdx) (s : State) : Result := complete (s.setReg x (s.reg y))

/-- 8XY1 (R137): V[x] <- V[x] OR V[y], no flag. -/
def execOrReg (x y : RegIdx) (s : State) : Result := complete (s.setReg x (s.reg x ||| s.reg y))

/-- 8XY2 (R138): V[x] <- V[x] AND V[y], no flag. -/
def execAndReg (x y : RegIdx) (s : State) : Result := complete (s.setReg x (s.reg x &&& s.reg y))

/-- 8XY3 (R139): V[x] <- V[x] XOR V[y], no flag. -/
def execXorReg (x y : RegIdx) (s : State) : Result := complete (s.setReg x (s.reg x ^^^ s.reg y))

/-- 8XY4 (R140): VF <- carry; V[x] <- (V[x] + V[y]) mod 256. -/
def execAddReg (x y : RegIdx) (s : State) : Result :=
  complete (s.setFlagThenReg (some (carryFlag (s.reg x) (s.reg y))) x (aluAdd (s.reg x) (s.reg y)))

/-- 8XY5 (R141): VF <- 1 when V[x] > V[y], else as SUB_FLAG_8XY5 says; V[x] <- (V[x] − V[y]) mod 256. -/
def execSubReg (x y : RegIdx) (s : State) : Result :=
  complete (s.setFlagThenReg (subFlagWrite s.env.params.subFlag8XY5 (s.reg x) (s.reg y)) x
    (aluSub (s.reg x) (s.reg y)))

/-- 8XY6 (R142): VF <- bit 0 of V[x]; V[x] <- V[x] >> 1. The Y digit is ignored (R84). -/
def execShr (x _y : RegIdx) (s : State) : Result :=
  complete (s.setFlagThenReg (some (shiftOutRight (s.reg x))) x (aluShr (s.reg x)))

/-- 8XY7 (R143): VF <- 1 when V[y] > V[x], else 0; V[x] <- (V[y] − V[x]) mod 256. -/
def execSubnReg (x y : RegIdx) (s : State) : Result :=
  complete (s.setFlagThenReg (some (noBorrowFlag (s.reg y) (s.reg x))) x (aluSub (s.reg y) (s.reg x)))

/-- 8XYE (R144): VF <- bit 7 of V[x]; V[x] <- (V[x] << 1) mod 256. The Y digit is ignored (R84). -/
def execShl (x _y : RegIdx) (s : State) : Result :=
  complete (s.setFlagThenReg (some (shiftOutLeft (s.reg x))) x (aluShl (s.reg x)))

/-- CXNN (R145): V[x] <- rnd AND nn, with rnd the STEP's random byte, a free value (R104, log 1). -/
def execRnd (x : RegIdx) (nn : Byte) (s : State) : Result := complete (s.setReg x (s.env.rnd &&& nn))

end Sys2Proof.Machine
end

