-- ==== Sys2Proof/Machine/Control.lean ====
section
/-! DEFINITION. Control transfer, skips and the call stack (42_control.md). Each meaning runs at pc = a + 2. -/

namespace Sys2Proof.Machine

/-- Complete, with the next instruction skipped when `b` (R112). -/
def skipIf (b : Bool) (s : State) : Result := complete (if b then s.skip else s)

/-- 00EE (R162): pc <- Pop(); StackUnderflow when SP = 0 (R161, R243). -/
def execRet (s : State) : Result :=
  match s.pop with
  | some (t, s') => complete (s'.setPc t)
  | none => .next (raiseFault .stackUnderflow (encode .ret) s)

/-- 1NNN (R163): pc <- zext_16(nnn). -/
def execJp (addr : Word) (s : State) : Result := complete (s.setPc addr)

/-- 2NNN (R164): Push(pc), the advanced pc; pc <- zext_16(nnn). StackOverflow when SP = 16 (R160, R242). -/
def execCall (addr : Word) (s : State) : Result :=
  match s.push s.pc with
  | some s' => complete (s'.setPc addr)
  | none => .next (raiseFault .stackOverflow (encode (.call addr)) s)

/-- 3XNN (R165): skip if V[x] = nn. -/
def execSeImm (x : RegIdx) (nn : Byte) (s : State) : Result := skipIf (decide (s.reg x = nn)) s

/-- 4XNN (R166): skip if V[x] ≠ nn. -/
def execSneImm (x : RegIdx) (nn : Byte) (s : State) : Result := skipIf (decide (s.reg x ≠ nn)) s

/-- 5XY0 (R167): skip if V[x] = V[y]. -/
def execSeReg (x y : RegIdx) (s : State) : Result := skipIf (decide (s.reg x = s.reg y)) s

/-- 9XY0 (R168): skip if V[x] ≠ V[y]. -/
def execSneReg (x y : RegIdx) (s : State) : Result := skipIf (decide (s.reg x ≠ s.reg y)) s

/-- BNNN (R169): pc <- zext_16(nnn) + V0, always register 0, not masked. -/
def execJpV0 (addr : Word) (s : State) : Result := complete (s.setPc (offsetTarget addr (s.reg 0)))

end Sys2Proof.Machine
end

