-- ==== Sys2Proof/Machine/Index.lean ====
section
/-! DEFINITION. Index register and memory instructions (43_memory_index.md). I is changed by ANNN, FX1E and FX29 only
(R180); no access moves it (D11). -/

namespace Sys2Proof.Machine

/-- ANNN (R181): I <- zext_16(nnn). -/
def execLdI (addr : Word) (s : State) : Result := complete (s.setI addr)

/-- FX1E (R182): I <- (I + V[x]) mod 2^16; VF is not written (D12). -/
def execAddI (x : RegIdx) (s : State) : Result := complete (s.setI (indexPlus s.i (s.reg x)))

/-- FX29 (R183): I <- 0x050 + 5 × V[x][3:0]. -/
def execLdFont (x : RegIdx) (s : State) : Result := complete (s.setI (glyphAddr (s.reg x)))

/-- FX33 (R184): the three decimal digits of V[x] to M[I], M[I + 1], M[I + 2]. -/
def execLdBcd (x : RegIdx) (s : State) : Result :=
  guardData (.ldBcd x) s (complete (s.memWriteBytes s.i.toNat (bcdDigits (s.reg x))))

/-- FX55 (R185): V[0] to V[x], inclusive, to M[I], …, M[I + x]. -/
def execStoreRegs (x : RegIdx) (s : State) : Result :=
  guardData (.storeRegs x) s (complete (s.memWriteBytes s.i.toNat (s.regsUpTo x)))

/-- FX65 (R186): V[0] to V[x], inclusive, from M[I], …, M[I + x]. -/
def execLoadRegs (x : RegIdx) (s : State) : Result :=
  guardData (.loadRegs x) s (complete (s.setRegs (s.memReadBytes s.i.toNat (x.val + 1))))

end Sys2Proof.Machine
end

