-- ==== Sys2Proof/Machine/Keys.lean ====
section
/-! DEFINITION. Keypad and timer instructions (45_keys_timers.md). KEY is the keypad as it stands when the step begins
(R103); no instruction writes it (R31). -/

namespace Sys2Proof.Machine

/-- EX9E (R220): skip if Held(V[x]). -/
def execSkp (x : RegIdx) (s : State) : Result := skipIf (s.held (s.reg x)) s

/-- EXA1 (R221): skip if not Held(V[x]). -/
def execSknp (x : RegIdx) (s : State) : Result := skipIf (!s.held (s.reg x)) s

/-- FX0A (R222): the lowest held key to V[x], with MODE RUNNING; with no key held, pc <- pc − 2 and MODE AWAITING-KEY (R117). -/
def execLdKey (x : RegIdx) (s : State) : Result :=
  match s.lowestHeld with
  | some k => complete (s.setReg x (BitVec.ofNat 8 k.val))
  | none => await s.refetch

/-- FX07 (R223): V[x] <- DT. -/
def execLdFromDt (x : RegIdx) (s : State) : Result := complete (s.setReg x s.dt)

/-- FX15 (R224): DT <- V[x]. -/
def execLdDt (x : RegIdx) (s : State) : Result := complete (s.setDt (s.reg x))

/-- FX18 (R225): ST <- V[x]. -/
def execLdSt (x : RegIdx) (s : State) : Result := complete (s.setSt (s.reg x))

end Sys2Proof.Machine
end

