-- ==== Sys2Proof/Machine/Screen.lean ====
section
/-! DEFINITION. The framebuffer writer (44_framebuffer.md): 00E0 and DXYN. -/

namespace Sys2Proof.Machine

/-- A framebuffer with every pixel 0. -/
def blankScreen : Framebuffer := Vector.replicate 32 (Vector.replicate 64 false)

/-- FB[row][col]. -/
def pixel (fb : Framebuffer) (row : Fin 32) (col : Fin 64) : Bool := fb[row][col]

/-- FB[row][col] <- FB[row][col] XOR 1. -/
def flipPixel (fb : Framebuffer) (row : Fin 32) (col : Fin 64) : Framebuffer :=
  fb.set row (fb[row].set col (!fb[row][col]) col.isLt) row.isLt

/-- A draw in progress: the framebuffer and `hit`, whether a pixel has gone from 1 to 0 (R201). -/
abbrev Draw := Framebuffer × Bool

/-- Compose one set sprite bit at (px, py): nothing where the position is not visible (R201, R202). -/
def composeBit (edge : DrawEdge) (px py : Nat) (d : Draw) : Draw :=
  match pixelAt edge px py with
  | none => d
  | some (row, col) => (flipPixel d.1 row col, d.2 || pixel d.1 row col)

/-- Compose bits 7 − c of a sprite byte for c = c₀, …, c₀ + k − 1, at columns cx + c of row py (R203: bit 7 is leftmost). -/
def composeBits (edge : DrawEdge) (cx py : Nat) (b : Byte) (c : Nat) : Nat → Draw → Draw
  | 0, d => d
  | k + 1, d =>
    composeBits edge cx py b (c + 1) k (if b.getLsbD (7 - c) then composeBit edge (cx + c) py d else d)

/-- Compose the sprite's rows, the first at row py, each one lower than the one before (R201, R203). -/
def composeRows (edge : DrawEdge) (cx py : Nat) : List Byte → Draw → Draw
  | [], d => d
  | b :: rest, d => composeRows edge cx (py + 1) rest (composeBits edge cx py b 0 8 d)

/-- 00E0 (R200): every pixel 0; REDRAW <- 1. -/
def execCls (s : State) : Result := complete (s.setScreen blankScreen)

/-- The draw of DXYN on the state's screen: coordinates V[x], V[y] and sprite bytes M[I], … all taken before any write
(R114, R201). -/
def State.spriteDraw (s : State) (x y : RegIdx) (rows : Nat) : Draw :=
  composeRows s.env.params.drawEdge (s.reg x).toNat (s.reg y).toNat (s.memReadBytes s.i.toNat rows) (s.fb, false)

/-- DXYN (R201): compose the sprite onto FB; then VF <- hit; REDRAW <- 1. -/
def execDrw (x y : RegIdx) (rows : Nat) (s : State) : Result :=
  guardData (.drw x y rows) s
    (complete ((s.setScreen (s.spriteDraw x y rows).1).setReg flagReg (flagByte (s.spriteDraw x y rows).2)))

end Sys2Proof.Machine
end

