-- ==== Sys2Proof/Machine/Cycle.lean ====
section
/-! DEFINITION. The fetch/decode/execute step (40_step_cycle.md R109 to R118) and the host's other transactions (R100 to
R108, R66, R252, R253, R270). -/

namespace Sys2Proof.Machine

/-! The step. -/

/-- The instruction word at pc: MemRead(pc, 1) ++ MemRead(pc + 1, 1) (R53, R110). -/
def State.fetchWord (s : State) : Word := joinBytes (s.memRead s.pc.toNat) (s.memRead (s.pc.toNat + 1))

/-- Decode w and execute it, pc already advanced; an illegal word raises UnknownOpcode and executes nothing (R113, R244). -/
def decodeExecute (w : Word) (s : State) : Result :=
  match decode w with
  | .ok i => exec i s
  | .error _ => .next (raiseFault .unknownOpcode w s)

/-- The step's random byte becomes its input rnd (R104). -/
def State.latchRnd (s : State) (rnd : Byte) : State := { s with env := { s.env with rnd := rnd } }

/-- STEP(rnd) on a core that is not halted: fetch, advance, decode, execute (R110 to R116). Under ADDR_OOB = fault the fetch
itself can fail (R51). -/
def cycle (rnd : Byte) (s : State) : Result :=
  guardAccess s s.pc.toNat 2 (fun v => raiseFetchFault v (s.latchRnd rnd))
    (decodeExecute s.fetchWord (s.latchRnd rnd).advance)

/-- STEP(rnd) (R109, R116): on a halted core it changes nothing. -/
def stepEffect (rnd : Byte) (s : State) : Result := if s.halted then .next s else cycle rnd s

/-! The other transactions. -/

/-- RESET (R270, R271): every element of the core as in R38; parameters and inputs are not the core's. -/
def resetEffect (s : State) : State := { State.reset with env := s.env }

/-- LOAD (R66): the image to M[0x200 + i] when it has at most 3584 bytes, else nothing. -/
def loadEffect (image : List Byte) (s : State) : State :=
  if image.length ≤ Config.programCapacity then s.memWriteBytes Config.programBase image else s

/-- SET_KEY (R103): KEY[k] <- pressed. -/
def setKeyEffect (k : KeyIdx) (pressed : Bool) (s : State) : State := { s with keys := s.keys.set k pressed k.isLt }

/-- One timer after n ticks: max(0, t − n) (R252, R253). -/
def countDown (n : Nat) (t : Byte) : Byte := BitVec.ofNat 8 (t.toNat - n)

/-- TICK(n) (R253). -/
def tickEffect (n : Nat) (s : State) : State := { s with dt := countDown n s.dt, st := countDown n s.st }

/-- CLEAR_REDRAW (R107). -/
def clearRedrawEffect (s : State) : State := { s with redraw := false }

/-- The effect of a transaction on the core (R100). The reads change nothing (R107, R108). -/
def transact (t : Transaction) (s : State) : Result :=
  match t with
  | .reset => .next (resetEffect s)
  | .load image => .next (loadEffect image s)
  | .setKey k pressed => .next (setKeyEffect k pressed s)
  | .step rnd => stepEffect rnd s
  | .tick n => .next (tickEffect n s)
  | .readFb => .next s
  | .clearRedraw => .next (clearRedrawEffect s)
  | .readDt => .next s
  | .readSt => .next s
  | .readStatus => .next s

/-! What a transaction returns to the host. -/

/-- The result of a transaction (R100). -/
inductive Response
  /-- RESET, SET_KEY, TICK and CLEAR_REDRAW return nothing. -/
  | nothing
  /-- STEP and LOAD completed (R66, R105). -/
  | ok
  /-- LOAD of an image that is too long (R255). -/
  | imageTooLarge
  /-- STEP on a core that a fault has halted, by this step or before (R105). -/
  | faulted (kind : FaultKind) (pc opcode : Word)
  /-- READ_FB (R107). -/
  | screen (fb : Framebuffer) (redraw : Bool)
  /-- READ_DT and READ_ST (R108). -/
  | timer (t : Byte)
  /-- READ_STATUS (R108). -/
  | status (mode : Mode) (fault : FaultLatch)
  deriving DecidableEq, Repr

/-- The result of transaction `t` that left the core in state `s'` (R105, R107, R108, R255). -/
def response (t : Transaction) (s' : State) : Response :=
  match t with
  | .reset => .nothing
  | .load image => if image.length ≤ Config.programCapacity then .ok else .imageTooLarge
  | .setKey _ _ => .nothing
  | .step _ => if s'.halted then .faulted s'.fault.kind s'.fault.pc s'.fault.opcode else .ok
  | .tick _ => .nothing
  | .readFb => .screen s'.fb s'.redraw
  | .clearRedraw => .nothing
  | .readDt => .timer s'.dt
  | .readSt => .timer s'.st
  | .readStatus => .status s'.mode s'.fault

/-! The machine's next transaction. -/

/-- The transaction the machine performs next: the host's oldest, or a STEP with a free random byte (R104, log 1, log 5). -/
def State.nextTransaction (s : State) : Transaction :=
  match s.env.inbox with
  | t :: _ => t
  | [] => .step (Config.freeRnd s.env.draws)

/-- The state in which that transaction is performed: it has left the inbox, or the free byte is drawn. -/
def State.takeTransaction (s : State) : State :=
  match s.env.inbox with
  | _ :: rest => { s with env := { s.env with inbox := rest } }
  | [] => { s with env := { s.env with draws := s.env.draws + 1 } }

/-- Perform the next transaction, whatever FAULT holds (R102, R249): a STEP on a halted core changes nothing (R109). Only where
the core is halted and the host has nothing left to issue does the machine stop, in a fault outcome (R119, log 4). -/
def performNext (s : State) : Result :=
  if s.env.inbox.isEmpty && s.halted then .fault (.faulted s.fault.kind s.fault.pc s.fault.opcode)
  else transact s.nextTransaction s.takeTransaction

/-- Store the two bytes of an instruction word at pc and pc + 1, through the address unit (R53). -/
def State.storeWordAtPc (s : State) (w : Word) : State := s.memWriteBytes s.pc.toNat [hiByte w, loByte w]

end Sys2Proof.Machine
end

