-- ==== Sys2Proof/Machine/Step.lean ====
section
/-! DEFINITION. One step of the machine: the host's next transaction (R100), which is a STEP where the inbox lists none. -/

namespace Sys2Proof.Machine

/-- One step: perform the next transaction. -/
def step (s : State) : Host.Outcome State Fault Refusal := performNext s

/-- `s` with the instruction word `w` at pc, and no host transaction before the next STEP, so that the very next step fetches
and runs it. It stands for the host's LOAD (R272, log 7). A halted core runs nothing until RESET (R109). -/
def State.withFetchWord (s : State) (nbits w : Nat) : State :=
  let t := s.storeWordAtPc (BitVec.ofNat 16 (w % 2 ^ nbits))
  { t with env := { t.env with inbox := [] } }

end Sys2Proof.Machine
end

