-- ==== Sys2Proof/Safety.lean ====
section
/-! DEFINITION. What counts as a safe run, in the terms claims use: a halted core is a failed run, never a successful end
(R119). Also the invariant that ties FAULT, MODE, pc and SP together (R34, R241, R245), and the runs of transactions (R100). -/

namespace Sys2Proof.Machine

/-- The program has failed: the core is halted by a fault (R119). -/
abbrev State.failed (s : State) : Prop := s.fault.kind ≠ .noFault

/-- A step is safe when it gives a next state that has not failed. -/
def SafeStep (s : State) : Prop := ∃ t, step s = .next t ∧ ¬ t.failed

/-- `k` steps in a row are safe. -/
def SafeFor : Nat → State → Prop
  | 0, s => ¬ s.failed
  | k + 1, s => ¬ s.failed ∧ ∃ t, step s = .next t ∧ SafeFor k t

/-- The core after a list of transactions, in order, stopping at the first that gives no next state (R100, R102). -/
def runTransactions : List Transaction → State → Result
  | [], s => .next s
  | t :: rest, s =>
    match transact t s with
    | .next s' => runTransactions rest s'
    | .fault r => .fault r
    | .refused r => .refused r

/-- FAULT names a word that can have raised its kind (R240, R242, R243, R244), or, for ProgramError, an address value outside
memory that the fetch at FAULT.pc reads or that an instruction with accesses from I can reach (R51). -/
def FaultLatch.names (f : FaultLatch) : Prop :=
  match f.kind with
  | .noFault => f.pc = 0 ∧ f.opcode = 0
  | .stackOverflow => ∃ addr, decode f.opcode = .ok (.call addr)
  | .stackUnderflow => decode f.opcode = .ok .ret
  | .unknownOpcode => decode f.opcode = .error (.unknownOpcode f.opcode)
  | .programError v => 4096 ≤ v ∧ v ≤ 0xFFFF + 15 ∧
      (v = f.pc.toNat ∨ v = f.pc.toNat + 1 ∨ ∃ i, decode f.opcode = .ok i ∧ 0 < dataCells i)

/-- A latched fault is precise (R241, R245): MODE is RUNNING, pc is two past its instruction, or at it where its fetch failed
(log 20), the stack is as full or as empty as the fault says, and ProgramError arises under ADDR_OOB = fault only (R51). -/
def State.faultPrecise (s : State) : Prop :=
  s.failed → s.mode = .running ∧
    (s.pc = s.fault.pc + 2 ∨
      s.pc = s.fault.pc ∧ ∃ v, s.fault.kind = .programError v ∧ (v = s.pc.toNat ∨ v = s.pc.toNat + 1)) ∧
    (s.fault.kind = .stackOverflow → s.sp = 16) ∧ (s.fault.kind = .stackUnderflow → s.sp = 0) ∧
    (∀ v, s.fault.kind = .programError v → s.env.params.addrOob = .fault)

/-- The invariant of the machine: memory is in its canonical form, and FAULT is a record of the fault that was raised. -/
structure State.Inv (s : State) : Prop where
  memWf : Memory.wf s.env.params.font s.mem
  latch : s.fault.names
  precise : s.faultPrecise

end Sys2Proof.Machine
end

