-- ==== Sys2Proof/Certificates/Slice0/Obligations.lean ====
section
/-! DEFINITION. The statements for the provers. A statement about `exec` speaks of the execute phase: `s` is the state after
the fetch advance, so `s.pc` is a + 2 for the instruction at address a (R26, R111). "The spec's own decision D<n>" marks a
clause that spec/92_eei_decisions.md chose where the source is silent; such a statement has basis 'derived'. -/

namespace Sys2Proof.Spec

open Sys2Proof.Machine

/-! Words read digit by digit, apart from the decoder's own fields (R81, R83). -/

/-- The second hex digit of a word, X. -/
def digitX (w : Word) : RegIdx := ⟨w.toNat / 256 % 16, Nat.mod_lt _ (by decide)⟩

/-- The third hex digit of a word, Y. -/
def digitY (w : Word) : RegIdx := ⟨w.toNat / 16 % 16, Nat.mod_lt _ (by decide)⟩

/-- The last hex digit of a word, N. -/
def digitN (w : Word) : Nat := w.toNat % 16

/-- The low byte of a word, NN. -/
def byteNN (w : Word) : Byte := BitVec.ofNat 8 (w.toNat % 256)

/-- The low three hex digits of a word, NNN, as a 16-bit value. -/
def addrNNN (w : Word) : Word := BitVec.ofNat 16 (w.toNat % 4096)

/-- Every word with the bits `pattern` under `mask` decodes to the instruction `f` reads from it: a rule's "Encoding:
match pattern mask mask". -/
def RowDecodes (mask pattern : Word) (f : Word → Instr) : Prop := ∀ w : Word, w &&& mask = pattern → decode w = .ok (f w)

/-! Frames. -/

/-- The pieces of state an instruction may change beside V registers. -/
inductive Piece
  | index
  | pc
  | stack
  | delay
  | sound
  | screen
  | memory
  deriving DecidableEq, Repr

/-- The frame of a completed instruction: of the registers only `regs` may change and of the rest only `ps`; KEY, FAULT and the
model's own fields never change, and MODE is RUNNING (R116). Memory is compared byte by byte. -/
def ChangesOnly (regs : List RegIdx) (ps : List Piece) (s t : State) : Prop :=
  (∀ r, r ∉ regs → t.reg r = s.reg r) ∧
  (.index ∉ ps → t.i = s.i) ∧
  (.pc ∉ ps → t.pc = s.pc) ∧
  (.stack ∉ ps → t.sp = s.sp ∧ t.stack = s.stack) ∧
  (.delay ∉ ps → t.dt = s.dt) ∧
  (.sound ∉ ps → t.st = s.st) ∧
  (.screen ∉ ps → t.fb = s.fb ∧ t.redraw = s.redraw) ∧
  (.memory ∉ ps → ∀ a, t.cell a = s.cell a) ∧
  t.keys = s.keys ∧ t.fault = s.fault ∧ t.env = s.env ∧ t.mode = .running

/-- Everything but FAULT and MODE is as it was; FAULT is the given record (R241). -/
def LatchesOnly (f : FaultLatch) (s t : State) : Prop :=
  t.fault = f ∧ t.v = s.v ∧ t.i = s.i ∧ t.pc = s.pc ∧ t.sp = s.sp ∧ t.stack = s.stack ∧
  t.dt = s.dt ∧ t.st = s.st ∧ t.fb = s.fb ∧ t.redraw = s.redraw ∧ t.keys = s.keys ∧ t.mem = s.mem ∧ t.env = s.env

/-- An access of `i` from I fails, at the address value max(I, 4096): ProgramError is latched as R241 latches a fault, and
nothing else changes but MODE (R51). -/
def RaisesProgramError (i : Instr) (s : State) : Prop :=
  ∃ t, exec i s = .next t ∧ t.mode = .running ∧
    LatchesOnly { kind := .programError (max s.i.toNat 4096), pc := s.pc - 2, opcode := encode i } s t

/-- The address unit faults on none of the `n` accesses from `base`: always so under ADDR_OOB = wrap, the hardware (R51). -/
def AccessOk (s : State) (base n : Nat) : Prop := s.env.params.addrOob = .wrap ∨ n = 0 ∨ base + n ≤ 4096

/-- Memory is in its canonical form, as every step keeps it (EveryStepKeepsTheInvariant). -/
def MemoryOk (s : State) : Prop := Memory.wf s.env.params.font s.mem

/-! Sprites. -/

/-- The pixel (row, col) is where a sprite bit at column px, row py lands (R202). -/
def LandsOn (edge : DrawEdge) (px py : Nat) (row : Fin 32) (col : Fin 64) : Prop :=
  match edge with
  | .wrap => row.val = py % 32 ∧ col.val = px % 64
  | .clip => row.val = py ∧ col.val = px

/-- Bit 7 − c of sprite byte r is set: the sprite's pixel in row r, column c (R203). -/
def SpriteBit (s : State) (r c : Nat) : Prop := (s.cell (addrOf (s.i.toNat + r))).getLsbD (7 - c) = true

/-- Some set bit of the sprite of DXYN lands on the pixel (R201). -/
def SpriteCovers (s : State) (x y : RegIdx) (rows : Nat) (row : Fin 32) (col : Fin 64) : Prop :=
  ∃ r < rows, ∃ c < 8, SpriteBit s r c ∧
    LandsOn s.env.params.drawEdge ((s.reg x).toNat + c) ((s.reg y).toNat + r) row col

/-! Runs of one instruction. -/

/-- Calls to the given addresses, each fetched where the one before jumped to. -/
def callAll : List Word → State → Result
  | [], s => .next s
  | a :: rest, s =>
    match exec (.call a) s.advance with
    | .next t => callAll rest t
    | .fault r => .fault r
    | .refused r => .refused r

/-- `n` returns, each fetched where the one before returned to. -/
def retAll : Nat → State → Result
  | 0, s => .next s
  | n + 1, s =>
    match exec .ret s.advance with
    | .next t => retAll n t
    | .fault r => .fault r
    | .refused r => .refused r

/-- The next state changed by `f`, a fault or a refusal as it is. -/
def mapNext (f : State → State) : Result → Result
  | .next s => .next (f s)
  | .fault r => .fault r
  | .refused r => .refused r

/-- The states differ in stack entries at or above SP at most (R37). -/
def SameButStale (s t : State) : Prop :=
  t = { s with stack := t.stack } ∧ ∀ k (hk : k < 16), k < s.sp.val → t.stack[k] = s.stack[k]

/-- The instruction names VF as its ordinary destination (R23). -/
def writesFlagAsDestination : Instr → Bool
  | .ldImm x _ | .addImm x _ | .ldReg x _ | .orReg x _ | .andReg x _ | .xorReg x _ | .addReg x _ | .subReg x _
  | .shr x _ | .subnReg x _ | .shl x _ | .rnd x _ | .ldFromDt x | .ldKey x | .loadRegs x => decide (x = 15)
  | .cls | .ret | .jp _ | .call _ | .seImm _ _ | .sneImm _ _ | .seReg _ _ | .sneReg _ _ | .ldI _ | .jpV0 _
  | .drw _ _ _ | .skp _ | .sknp _ | .ldDt _ | .ldSt _ | .addI _ | .ldFont _ | .ldBcd _ | .storeRegs _ => false

end Sys2Proof.Spec

open Sys2Proof Sys2Proof.Machine Sys2Proof.Spec

/-! Encoding. -/

/-- Decoding the word of a well-formed instruction gives it back, every operand at every value (R81 to R86). -/
def Obligations.EncodeThenDecodeGivesTheInstruction : Prop :=
  ∀ i : Instr, i.wellFormed = true → decode (encode i) = .ok i

/-- A word that decodes is the word its instruction encodes to, and the instruction is well-formed: no bit of a legal word is
lost, the ignored Y digit of 8XY6 and 8XYE included (log 10). -/
def Obligations.DecodeThenEncodeGivesTheWord : Prop :=
  ∀ (w : Word) (i : Instr), decode w = .ok i → i.wellFormed = true ∧ encode i = w

/-- A word decodes exactly when it matches a row of the opcode map, to that row's instruction; every other word is rejected
as UnknownOpcode (R85, R86, R88; strict decoding is the spec's own decision D3). -/
def Obligations.DecoderAcceptsExactlyTheOpcodeMap : Prop :=
  ∀ w : Word,
    (∀ i, decode w = .ok i → ∃ r ∈ opcodeTable, r.matchesWord w = true ∧ r.mnemonic = i.mnemonic) ∧
    (∀ r ∈ opcodeTable, r.matchesWord w = true → ∃ i, decode w = .ok i ∧ i.mnemonic = r.mnemonic) ∧
    ((∀ r ∈ opcodeTable, r.matchesWord w = false) → decode w = .error (.unknownOpcode w))

/-- No word matches two rows of the opcode map (R86: "the patterns are disjoint"). -/
def Obligations.OpcodeRowsAreDisjoint : Prop :=
  ∀ w : Word, ∀ r ∈ opcodeTable, ∀ q ∈ opcodeTable, r.matchesWord w = true → q.matchesWord w = true → r = q

/-- The illegal words are exactly those of R87's table, family by family (the spec's own decision D3). -/
def Obligations.IllegalWordsAreThoseOfTheSixFamilies : Prop :=
  ∀ w : Word, decode w = .error (.unknownOpcode w) ↔
    (w.toNat / 4096 = 0x0 ∧ w.toNat ≠ 0x00E0 ∧ w.toNat ≠ 0x00EE) ∨
    (w.toNat / 4096 = 0x5 ∧ w.toNat % 16 ≠ 0) ∨
    (w.toNat / 4096 = 0x8 ∧ w.toNat % 16 ∈ [0x8, 0x9, 0xA, 0xB, 0xC, 0xD, 0xF]) ∨
    (w.toNat / 4096 = 0x9 ∧ w.toNat % 16 ≠ 0) ∨
    (w.toNat / 4096 = 0xE ∧ w.toNat % 256 ∉ [0x9E, 0xA1]) ∨
    (w.toNat / 4096 = 0xF ∧ w.toNat % 256 ∉ [0x07, 0x0A, 0x15, 0x18, 0x1E, 0x29, 0x33, 0x55, 0x65])

/-- A word of each of the sixteen families decodes to the instruction its rule names, most of them the rules' own examples; the
words of 8XY6 and 8XY5 are spec/95_test_vectors.md L2.1's. That 0x5121 is illegal is the spec's own decision D3 (L2.2 #15). -/
def Obligations.ExampleWordsDecode : Prop :=
  decode 0x00EE = .ok .ret ∧ decode 0x1234 = .ok (.jp 0x234) ∧ decode 0x2300 = .ok (.call 0x300) ∧
  decode 0x3142 = .ok (.seImm 1 0x42) ∧ decode 0x4142 = .ok (.sneImm 1 0x42) ∧ decode 0x5120 = .ok (.seReg 1 2) ∧
  decode 0x63AB = .ok (.ldImm 3 0xAB) ∧ decode 0x7001 = .ok (.addImm 0 0x01) ∧ decode 0x8235 = .ok (.subReg 2 3) ∧
  decode 0x84A6 = .ok (.shr 4 10) ∧ decode 0x9120 = .ok (.sneReg 1 2) ∧ decode 0xA2F0 = .ok (.ldI 0x2F0) ∧
  decode 0xB300 = .ok (.jpV0 0x300) ∧ decode 0xC30F = .ok (.rnd 3 0x0F) ∧ decode 0xD125 = .ok (.drw 1 2 5) ∧
  decode 0xE5A1 = .ok (.sknp 5) ∧ decode 0xF30A = .ok (.ldKey 3) ∧ decode 0xF255 = .ok (.storeRegs 2) ∧
  decode 0x5121 = .error (.unknownOpcode 0x5121)

/-! The step. -/

/-- The fetched word is the byte at pc and then the byte at pc + 1, big-endian, each through the address unit (R53, R51; that
address values wrap modulo 4096 is the spec's own decision D2). -/
def Obligations.FetchReadsTwoBytesBigEndian : Prop :=
  ∀ s : State,
    s.fetchWord.toNat = 256 * (s.cell (s.pc.toNat % 4096)).toNat + (s.cell ((s.pc.toNat + 1) % 4096)).toNat

/-- When the word at pc decodes to `i` and the next transaction is a STEP, the step is `exec i` at the state with pc advanced
by 2 and the STEP's random byte as input: a free byte when the inbox is empty, the host's when it lists the STEP (that an empty
inbox means a STEP is the model's choice, logs 1 and 5). It gives a next state, and the STEP returns Ok when it completed
without fault, a blocked FX0A too, and else Faulted with FAULT's fields (R105). -/
def Obligations.StepRunsTheDecodedInstruction : Prop :=
  ∀ (s : State) (i : Instr), decode s.fetchWord = .ok i → s.fault.kind = .noFault → AccessOk s s.pc.toNat 2 →
    (s.env.inbox = [] →
      step s = exec i { s with
        pc := s.pc + 2
        env := { s.env with draws := s.env.draws + 1, rnd := Config.freeRnd s.env.draws } }) ∧
    (∀ rnd rest, s.env.inbox = .step rnd :: rest →
      step s = exec i { s with pc := s.pc + 2, env := { s.env with inbox := rest, rnd := rnd } }) ∧
    (∀ rnd, ∃ t, transact (.step rnd) s = .next t ∧
      exec i { s with pc := s.pc + 2, env := { s.env with rnd := rnd } } = .next t ∧
      response (.step rnd) t =
        if t.fault.kind = .noFault then .ok else .faulted t.fault.kind t.fault.pc t.fault.opcode)

/-- The host's next transaction, any of the ten and whatever FAULT holds, is performed by itself and leaves the inbox, so
that one behind a STEP of a halted core is reached too (R100, R102, R249; the inbox is the model's choice, log 5). -/
def Obligations.StepPerformsTheHostsTransactions : Prop :=
  ∀ (s : State) (t : Transaction) (rest : List Transaction), s.env.inbox = t :: rest →
    ∃ u, step s = .next u ∧ transact t { s with env := { s.env with inbox := rest } } = .next u ∧ u.env.inbox = rest

/-- An illegal word raises UnknownOpcode and executes nothing: only pc advances, by 2, FAULT holds the record and MODE is
RUNNING (R113, R241, R244). The record of pc and word is the spec's own decision D16, the state a fault leaves is its decision
D15, that the word is illegal at all is its decision D3. -/
def Obligations.IllegalWordRaisesUnknownOpcode : Prop :=
  ∀ (rnd : Byte) (s : State), s.fault.kind = .noFault → AccessOk s s.pc.toNat 2 →
    decode s.fetchWord = .error (.unknownOpcode s.fetchWord) →
    ∃ t, transact (.step rnd) s = .next t ∧
      LatchesOnly { kind := .unknownOpcode, pc := s.pc, opcode := s.fetchWord }
        { s with pc := s.pc + 2, env := { s.env with rnd := rnd } } t ∧ t.mode = .running ∧
      response (.step rnd) t = .faulted .unknownOpcode s.pc s.fetchWord

/-- On a halted core a STEP changes nothing and returns Faulted with FAULT's fields (R109, R105; the spec's own decision D15);
as the machine's step it only leaves the inbox, and where the inbox is empty the step is a fault outcome (the model's choice,
log 4, after R119). -/
def Obligations.HaltedStepChangesNothing : Prop :=
  ∀ (rnd : Byte) (s : State), s.fault.kind ≠ .noFault →
    transact (.step rnd) s = .next s ∧
    response (.step rnd) s = .faulted s.fault.kind s.fault.pc s.fault.opcode ∧
    (∀ rest, s.env.inbox = .step rnd :: rest → step s = .next { s with env := { s.env with inbox := rest } }) ∧
    (s.env.inbox = [] → step s = .fault (.faulted s.fault.kind s.fault.pc s.fault.opcode))

/-- A fault raised by a STEP is precise: FAULT names the address and the word of the instruction, MODE is RUNNING, and nothing
else changed but pc, advanced by 2 (R245, R241; the spec's own decisions D15 and D16). Where the fetch itself fails, under
ADDR_OOB = fault, FAULT names its address and the address value, and pc stays; the word is a free value (R51; log 20). -/
def Obligations.FaultsArePrecise : Prop :=
  ∀ (rnd : Byte) (s t : State), s.fault.kind = .noFault → transact (.step rnd) s = .next t → t.fault.kind ≠ .noFault →
    t.mode = .running ∧
    (AccessOk s s.pc.toNat 2 →
      LatchesOnly { kind := t.fault.kind, pc := s.pc, opcode := s.fetchWord }
        { s with pc := s.pc + 2, env := { s.env with rnd := rnd } } t) ∧
    (¬ AccessOk s s.pc.toNat 2 →
      LatchesOnly { kind := .programError (max s.pc.toNat 4096), pc := s.pc, opcode := t.fault.opcode }
        { s with env := { s.env with rnd := rnd, draws := s.env.draws + 1 } } t)

/-- Once a fault is latched no transaction but RESET changes FAULT, and none but LOAD, SET_KEY, TICK and CLEAR_REDRAW changes
anything, each its own piece (R248, R249; the spec's own decision D15). -/
def Obligations.OnlyResetLeavesTheHaltedState : Prop :=
  ∀ (t : Transaction) (s u : State), s.fault.kind ≠ .noFault → transact t s = .next u → t ≠ .reset →
    u.fault = s.fault ∧
    u = { s with keys := u.keys, dt := u.dt, st := u.st, redraw := u.redraw, mem := u.mem } ∧
    (u.keys ≠ s.keys → ∃ k p, t = .setKey k p) ∧ (u.dt ≠ s.dt ∨ u.st ≠ s.st → ∃ n, t = .tick n) ∧
    (u.redraw ≠ s.redraw → t = .clearRedraw) ∧ (u.mem ≠ s.mem → ∃ image, t = .load image)

/-- A STEP that leaves MODE = AWAITING-KEY leaves pc at the FX0A that set it, with V, I, memory, the stack, the timers and the
screen unchanged, so the next STEP fetches this FX0A again (R33, R117, R222). -/
def Obligations.AwaitingKeyRefetchesTheSameInstruction : Prop :=
  ∀ (rnd : Byte) (s t : State), s.fault.kind = .noFault → transact (.step rnd) s = .next t → t.mode = .awaitingKey →
    t = { s with mode := .awaitingKey, env := { s.env with rnd := rnd } } ∧
    ∃ x, decode t.fetchWord = .ok (.ldKey x)

/-! Register file and ALU. -/

/-- 6XNN and 8XY0: the destination takes the value, whichever register it is, and nothing else changes (R134, R136). -/
def Obligations.LoadImmediateAndCopyRegister : Prop :=
  RowDecodes 0xF000 0x6000 (fun w => .ldImm (digitX w) (byteNN w)) ∧
  RowDecodes 0xF00F 0x8000 (fun w => .ldReg (digitX w) (digitY w)) ∧
  ∀ (s : State) (x y : RegIdx) (nn : Byte),
    (∃ t, exec (.ldImm x nn) s = .next t ∧ t.reg x = nn ∧ ChangesOnly [x] [] s t) ∧
    (∃ t, exec (.ldReg x y) s = .next t ∧ t.reg x = s.reg y ∧ ChangesOnly [x] [] s t)

/-- 7XNN: the sum modulo 256, and VF untouched unless it is the destination (R135). -/
def Obligations.AddImmediateWrapsWithoutFlag : Prop :=
  RowDecodes 0xF000 0x7000 (fun w => .addImm (digitX w) (byteNN w)) ∧
  ∀ (s : State) (x : RegIdx) (nn : Byte),
    ∃ t, exec (.addImm x nn) s = .next t ∧ (t.reg x).toNat = ((s.reg x).toNat + nn.toNat) % 256 ∧ ChangesOnly [x] [] s t

/-- 8XY1, 8XY2, 8XY3: bit k of the result is the OR, AND or XOR of bits k of the old V[x] and V[y]; VF is not written as a
side effect, which is the spec's own decision D13 (R137, R138, R139). -/
def Obligations.LogicOperationsAreBitwise : Prop :=
  RowDecodes 0xF00F 0x8001 (fun w => .orReg (digitX w) (digitY w)) ∧
  RowDecodes 0xF00F 0x8002 (fun w => .andReg (digitX w) (digitY w)) ∧
  RowDecodes 0xF00F 0x8003 (fun w => .xorReg (digitX w) (digitY w)) ∧
  ∀ (s : State) (x y : RegIdx),
    (∃ t, exec (.orReg x y) s = .next t ∧ ChangesOnly [x] [] s t ∧
      ∀ k < 8, (t.reg x).getLsbD k = ((s.reg x).getLsbD k || (s.reg y).getLsbD k)) ∧
    (∃ t, exec (.andReg x y) s = .next t ∧ ChangesOnly [x] [] s t ∧
      ∀ k < 8, (t.reg x).getLsbD k = ((s.reg x).getLsbD k && (s.reg y).getLsbD k)) ∧
    (∃ t, exec (.xorReg x y) s = .next t ∧ ChangesOnly [x] [] s t ∧
      ∀ k < 8, (t.reg x).getLsbD k = ((s.reg x).getLsbD k ^^ (s.reg y).getLsbD k))

/-- 8XY4: V[x] takes the sum modulo 256 whichever register x is, and VF, when it is not x, the carry: 1 when the sum of the
old values is over 255 and else 0 (R140; that V[x] is written after VF is the spec's own decision D4, R131). -/
def Obligations.AddRegistersSetsCarry : Prop :=
  RowDecodes 0xF00F 0x8004 (fun w => .addReg (digitX w) (digitY w)) ∧
  ∀ (s : State) (x y : RegIdx),
    ∃ t, exec (.addReg x y) s = .next t ∧ ChangesOnly [x, 15] [] s t ∧
      (t.reg x).toNat = ((s.reg x).toNat + (s.reg y).toNat) % 256 ∧
      (x ≠ 15 → t.reg 15 = if 255 < (s.reg x).toNat + (s.reg y).toNat then 0x01 else 0x00)

/-- 8XY5: V[x] takes the difference modulo 256; VF, when it is not x, is 1 when V[x] > V[y], and else unchanged under
SUB_FLAG_8XY5 = unchanged and 0 under `zero` (R141; the parameter is the spec's own decision D5, that V[x] is written after VF its decision D4). -/
def Obligations.SubtractWritesFlagByParameter : Prop :=
  RowDecodes 0xF00F 0x8005 (fun w => .subReg (digitX w) (digitY w)) ∧
  ∀ (s : State) (x y : RegIdx),
    ∃ t, exec (.subReg x y) s = .next t ∧ ChangesOnly [x, 15] [] s t ∧
      (t.reg x).toNat = (256 + (s.reg x).toNat - (s.reg y).toNat) % 256 ∧
      (x ≠ 15 → (s.reg y).toNat < (s.reg x).toNat → t.reg 15 = 0x01) ∧
      (x ≠ 15 → (s.reg x).toNat ≤ (s.reg y).toNat →
        (s.env.params.subFlag8XY5 = .unchanged → t.reg 15 = s.reg 15) ∧
        (s.env.params.subFlag8XY5 = .zero → t.reg 15 = 0x00))

/-- 8XY7: V[x] takes V[y] − V[x] modulo 256; VF, when it is not x, is 1 when V[y] > V[x] and else 0, on both branches
(R143; that V[x] is written after VF is the spec's own decision D4, R131). -/
def Obligations.ReverseSubtractSetsNoBorrow : Prop :=
  RowDecodes 0xF00F 0x8007 (fun w => .subnReg (digitX w) (digitY w)) ∧
  ∀ (s : State) (x y : RegIdx),
    ∃ t, exec (.subnReg x y) s = .next t ∧ ChangesOnly [x, 15] [] s t ∧
      (t.reg x).toNat = (256 + (s.reg y).toNat - (s.reg x).toNat) % 256 ∧
      (x ≠ 15 → t.reg 15 = if (s.reg x).toNat < (s.reg y).toNat then 0x01 else 0x00)

/-- 8XY6: V[x] is halved; VF, when it is not x, takes bit 0 of the old V[x]; V[y] plays no part (R142; that V[x] is written
after VF is the spec's own decision D4, R131). -/
def Obligations.ShiftRightMovesBitZeroOut : Prop :=
  RowDecodes 0xF00F 0x8006 (fun w => .shr (digitX w) (digitY w)) ∧
  ∀ (s : State) (x y : RegIdx),
    ∃ t, exec (.shr x y) s = .next t ∧ ChangesOnly [x, 15] [] s t ∧
      (t.reg x).toNat = (s.reg x).toNat / 2 ∧ (x ≠ 15 → (t.reg 15).toNat = (s.reg x).toNat % 2)

/-- 8XYE: V[x] is doubled modulo 256; VF, when it is not x, takes bit 7 of the old V[x], which is the spec's own decision D6;
V[y] plays no part (R144; that V[x] is written after VF is its decision D4, R131). -/
def Obligations.ShiftLeftMovesBitSevenOut : Prop :=
  RowDecodes 0xF00F 0x800E (fun w => .shl (digitX w) (digitY w)) ∧
  ∀ (s : State) (x y : RegIdx),
    ∃ t, exec (.shl x y) s = .next t ∧ ChangesOnly [x, 15] [] s t ∧
      (t.reg x).toNat = (2 * (s.reg x).toNat) % 256 ∧ (x ≠ 15 → (t.reg 15).toNat = (s.reg x).toNat / 128)

/-- CXNN: V[x] is the STEP's random byte under the mask nn, for every random byte; and the values it can take are exactly
those within the mask (R145; the free byte is the spec's own decision D18, log 1). -/
def Obligations.RandomByteIsMaskedAndFree : Prop :=
  RowDecodes 0xF000 0xC000 (fun w => .rnd (digitX w) (byteNN w)) ∧
  ∀ (s : State) (x : RegIdx) (nn : Byte),
    (∀ rnd : Byte, ∃ t, exec (.rnd x nn) (s.latchRnd rnd) = .next t ∧ t.reg x = rnd &&& nn ∧
      ChangesOnly [x] [] (s.latchRnd rnd) t) ∧
    (∀ b : Byte, b &&& ~~~nn = 0 ↔ ∃ rnd t, exec (.rnd x nn) (s.latchRnd rnd) = .next t ∧ t.reg x = b)

/-- VF changes only by the six flag writers and by an instruction that names VF as its destination, and a flag writer whose
destination is not VF leaves 0x00 or 0x01 there: 8XY4, 8XY6, 8XY7 and 8XYE always, DXYN when it raises no ProgramError, 8XY5
but on its branch without a write, V[x] ≤ V[y] under SUB_FLAG_8XY5 = unchanged, where VF stays (R23, R131, R141; the spec's own
decisions D4, D5 and D13). -/
def Obligations.FlagRegisterHasSixSideEffectWriters : Prop :=
  ∀ (i : Instr) (s t : State), exec i s = .next t →
    (t.reg 15 ≠ s.reg 15 → i.mnemonic ∈ ["8XY4", "8XY5", "8XY6", "8XY7", "8XYE", "DXYN"] ∨
      writesFlagAsDestination i = true) ∧
    (i.mnemonic ∈ ["8XY4", "8XY6", "8XY7", "8XYE"] → writesFlagAsDestination i = false →
      t.reg 15 = 0x00 ∨ t.reg 15 = 0x01) ∧
    (i.mnemonic = "DXYN" → t.fault.kind = .noFault → t.reg 15 = 0x00 ∨ t.reg 15 = 0x01) ∧
    (∀ x y, i = .subReg x y → x ≠ 15 → t.reg 15 = 0x00 ∨ t.reg 15 = 0x01 ∨
      t.reg 15 = s.reg 15 ∧ (s.reg x).toNat ≤ (s.reg y).toNat ∧ s.env.params.subFlag8XY5 = .unchanged)

/-! Control transfer and the call stack. -/

/-- 1NNN: pc takes nnn, zero-extended, and nothing else changes (R163). -/
def Obligations.JumpSetsPc : Prop :=
  RowDecodes 0xF000 0x1000 (fun w => .jp (addrNNN w)) ∧
  ∀ (s : State) (addr : Word), ∃ t, exec (.jp addr) s = .next t ∧ t.pc = addr ∧ ChangesOnly [] [.pc] s t

/-- BNNN: pc takes nnn + V0, register 0 always, not masked to 12 bits (R169; the spec's own decision D7). -/
def Obligations.OffsetJumpIsNotMasked : Prop :=
  RowDecodes 0xF000 0xB000 (fun w => .jpV0 (addrNNN w)) ∧
  ∀ (s : State) (addr : Word), addr.toNat < 4096 →
    ∃ t, exec (.jpV0 addr) s = .next t ∧ t.pc.toNat = addr.toNat + (s.reg 0).toNat ∧ ChangesOnly [] [.pc] s t

/-- 2NNN: with fewer than 16 entries it pushes the advanced pc and jumps, other entries as they were; with 16 it raises
StackOverflow and neither pushes nor jumps (R164, R160). -/
def Obligations.CallPushesOrOverflows : Prop :=
  RowDecodes 0xF000 0x2000 (fun w => .call (addrNNN w)) ∧
  ∀ (s : State) (addr : Word),
    (s.sp.val < 16 → ∃ t, exec (.call addr) s = .next t ∧ t.sp.val = s.sp.val + 1 ∧ t.pc = addr ∧
      t.stack[s.sp.val]? = some s.pc ∧ (∀ k : Nat, k ≠ s.sp.val → t.stack[k]? = s.stack[k]?) ∧
      ChangesOnly [] [.pc, .stack] s t) ∧
    (s.sp.val = 16 → ∃ t, exec (.call addr) s = .next t ∧ t.fault.kind = .stackOverflow ∧ LatchesOnly t.fault s t)

/-- 00EE: with an entry on the stack it pops it into pc, every entry keeping its value; with none it raises StackUnderflow
and changes neither pc nor the stack (R162, R161). -/
def Obligations.ReturnPopsOrUnderflows : Prop :=
  RowDecodes 0xFFFF 0x00EE (fun _ => .ret) ∧
  ∀ s : State,
    (0 < s.sp.val → ∃ t, exec .ret s = .next t ∧ t.sp.val = s.sp.val - 1 ∧ some t.pc = s.stack[s.sp.val - 1]? ∧
      t.stack = s.stack ∧ ChangesOnly [] [.pc, .stack] s t) ∧
    (s.sp.val = 0 → ∃ t, exec .ret s = .next t ∧ t.fault.kind = .stackUnderflow ∧ LatchesOnly t.fault s t)

/-- A return undoes a call: after 2NNN and then 00EE, with the callee's pc anywhere, pc, SP, the live stack entries and all
else are as they were before the call's execute phase (R162, R164; spec/95_test_vectors.md L1.3). -/
def Obligations.ReturnUndoesCall : Prop :=
  ∀ (s : State) (addr p : Word), s.sp.val < 16 →
    ∃ t u, exec (.call addr) s = .next t ∧ exec .ret (t.setPc p) = .next u ∧ u.pc = s.pc ∧ u.sp = s.sp ∧
      (∀ k : Nat, k < s.sp.val → u.stack[k]? = s.stack[k]?) ∧ ChangesOnly [] [.stack] s u

/-- 2NNN raises StackOverflow when SP = 16, with FAULT.pc its own address; and from an empty stack sixteen calls succeed and a
seventeenth raises it, with FAULT.pc the seventeenth call's address (R242). -/
def Obligations.SeventeenthCallOverflows : Prop :=
  (∀ (s : State) (addr : Word), s.sp.val = 16 →
    ∃ u, exec (.call addr) s.advance = .next u ∧ u.fault.kind = .stackOverflow ∧ u.fault.pc = s.pc) ∧
  ∀ (s : State) (addrs : List Word) (addr : Word), s.sp.val = 0 → addrs.length = 16 →
    ∃ t u, callAll addrs s = .next t ∧ t.sp.val = 16 ∧ t.fault = s.fault ∧
      exec (.call addr) t.advance = .next u ∧ u.fault.kind = .stackOverflow ∧ u.fault.pc = t.pc

/-- 00EE raises StackUnderflow when SP = 0; and from a full stack sixteen returns succeed and one more raises it (R243). -/
def Obligations.SeventeenthReturnUnderflows : Prop :=
  (∀ s : State, s.sp.val = 0 → ∃ u, exec .ret s.advance = .next u ∧ u.fault.kind = .stackUnderflow) ∧
  ∀ s : State, s.sp.val = 16 →
    ∃ t u, retAll 16 s = .next t ∧ t.sp.val = 0 ∧ t.fault = s.fault ∧
      exec .ret t.advance = .next u ∧ u.fault.kind = .stackUnderflow ∧ u.sp.val = 0

/-- 3XNN and 4XNN: the next word is skipped when V[x] is, or is not, nn; only pc changes (R165, R166). -/
def Obligations.SkipOnImmediate : Prop :=
  RowDecodes 0xF000 0x3000 (fun w => .seImm (digitX w) (byteNN w)) ∧
  RowDecodes 0xF000 0x4000 (fun w => .sneImm (digitX w) (byteNN w)) ∧
  ∀ (s : State) (x : RegIdx) (nn : Byte),
    (∃ t, exec (.seImm x nn) s = .next t ∧ ChangesOnly [] [.pc] s t ∧
      t.pc.toNat = if s.reg x = nn then (s.pc.toNat + 2) % 65536 else s.pc.toNat) ∧
    (∃ t, exec (.sneImm x nn) s = .next t ∧ ChangesOnly [] [.pc] s t ∧
      t.pc.toNat = if s.reg x = nn then s.pc.toNat else (s.pc.toNat + 2) % 65536)

/-- 5XY0 and 9XY0: the next word is skipped when V[x] and V[y] are, or are not, equal; only pc changes (R167, R168). -/
def Obligations.SkipOnRegisters : Prop :=
  RowDecodes 0xF00F 0x5000 (fun w => .seReg (digitX w) (digitY w)) ∧
  RowDecodes 0xF00F 0x9000 (fun w => .sneReg (digitX w) (digitY w)) ∧
  ∀ (s : State) (x y : RegIdx),
    (∃ t, exec (.seReg x y) s = .next t ∧ ChangesOnly [] [.pc] s t ∧
      t.pc.toNat = if s.reg x = s.reg y then (s.pc.toNat + 2) % 65536 else s.pc.toNat) ∧
    (∃ t, exec (.sneReg x y) s = .next t ∧ ChangesOnly [] [.pc] s t ∧
      t.pc.toNat = if s.reg x = s.reg y then s.pc.toNat else (s.pc.toNat + 2) % 65536)

/-! Index register and memory. -/

/-- ANNN: I takes nnn, zero-extended, and nothing else changes (R181). -/
def Obligations.LoadIndexSetsI : Prop :=
  RowDecodes 0xF000 0xA000 (fun w => .ldI (addrNNN w)) ∧
  ∀ (s : State) (addr : Word), ∃ t, exec (.ldI addr) s = .next t ∧ t.i = addr ∧ ChangesOnly [] [.index] s t

/-- FX1E: I takes I + V[x] modulo 2^16 and VF is not written, which is the spec's own decision D12 (R182). -/
def Obligations.AddToIndexWrapsWithoutFlag : Prop :=
  RowDecodes 0xF0FF 0xF01E (fun w => .addI (digitX w)) ∧
  ∀ (s : State) (x : RegIdx),
    ∃ t, exec (.addI x) s = .next t ∧ t.i.toNat = (s.i.toNat + (s.reg x).toNat) % 65536 ∧ ChangesOnly [] [.index] s t

/-- FX29: I takes 0x050 + 5 × the low hex digit of V[x], which is the spec's own decision D9 (R183). -/
def Obligations.FontGlyphIsOfTheLowDigit : Prop :=
  RowDecodes 0xF0FF 0xF029 (fun w => .ldFont (digitX w)) ∧
  ∀ (s : State) (x : RegIdx),
    ∃ t, exec (.ldFont x) s = .next t ∧ t.i.toNat = 0x050 + 5 * ((s.reg x).toNat % 16) ∧ ChangesOnly [] [.index] s t

/-- FX29 and then FX65 with X = 0 load V0 with the first byte of FONT's glyph of V[x]'s low digit, while the font cells hold
FONT, for every FONT (R183, R186, R56; spec/95_test_vectors.md L1.7; FONT is the spec's own decision D30). -/
def Obligations.GlyphAddressReadsTheFont : Prop :=
  ∀ (s : State) (x : RegIdx), (∀ k : Fin 80, s.cell (0x050 + k.val) = s.env.params.font[k]) →
    ∃ t u, exec (.ldFont x) s = .next t ∧ exec (.loadRegs 0) t = .next u ∧
      some (u.reg 0) = s.env.params.font[5 * ((s.reg x).toNat % 16)]?

/-- FX33: the hundreds, tens and ones of V[x] to the cells of I, I + 1 and I + 2; every other cell and all else as before
(R184, R51; that address values wrap modulo 4096 is the spec's own decision D2). -/
def Obligations.BcdStoresThreeDigits : Prop :=
  RowDecodes 0xF0FF 0xF033 (fun w => .ldBcd (digitX w)) ∧
  ∀ (s : State) (x : RegIdx), MemoryOk s → AccessOk s s.i.toNat 3 →
    ∃ t, exec (.ldBcd x) s = .next t ∧ ChangesOnly [] [.memory] s t ∧
      (t.cell (addrOf s.i.toNat)).toNat = (s.reg x).toNat / 100 ∧
      (t.cell (addrOf (s.i.toNat + 1))).toNat = (s.reg x).toNat / 10 % 10 ∧
      (t.cell (addrOf (s.i.toNat + 2))).toNat = (s.reg x).toNat % 10 ∧
      (∀ a, (∀ k < 3, addrOf (s.i.toNat + k) ≠ a) → t.cell a = s.cell a)

/-- FX55: V[0] to V[x] to the cells of I to I + x; every other cell and all else as before, I too, which is the spec's own
decision D11 (R185, R51; that address values wrap modulo 4096 is its decision D2). -/
def Obligations.StoreRegistersWritesTheBlock : Prop :=
  RowDecodes 0xF0FF 0xF055 (fun w => .storeRegs (digitX w)) ∧
  ∀ (s : State) (x : RegIdx), MemoryOk s → AccessOk s s.i.toNat (x.val + 1) →
    ∃ t, exec (.storeRegs x) s = .next t ∧ ChangesOnly [] [.memory] s t ∧
      (∀ r : RegIdx, r ≤ x → t.cell (addrOf (s.i.toNat + r.val)) = s.reg r) ∧
      (∀ a, (∀ r : RegIdx, r ≤ x → addrOf (s.i.toNat + r.val) ≠ a) → t.cell a = s.cell a)

/-- FX65: V[0] to V[x] from the cells of I to I + x, the registers past x as before; memory and all else as before, I too,
which is the spec's own decision D11 (R186, R51; that address values wrap modulo 4096 is its decision D2). -/
def Obligations.LoadRegistersReadsTheBlock : Prop :=
  RowDecodes 0xF0FF 0xF065 (fun w => .loadRegs (digitX w)) ∧
  ∀ (s : State) (x : RegIdx), AccessOk s s.i.toNat (x.val + 1) →
    ∃ t, exec (.loadRegs x) s = .next t ∧ ChangesOnly (List.finRange 16) [] s t ∧
      (∀ r : RegIdx, t.reg r = if r ≤ x then s.cell (addrOf (s.i.toNat + r.val)) else s.reg r)

/-- Under ADDR_OOB = fault, which is not the hardware, an access past cell 4095 raises ProgramError with the first address value
of 4096 or more, for DXYN, FX33, FX55 and FX65 and for the fetch: FAULT latches it and the core halts, as R241 raises a fault,
and nothing else changes (R51; the spec's own decision D2; the record's details are the model's, log 3, and for the fetch, whose
pc stays and whose word is free, log 20). -/
def Obligations.OutOfRangeAccessStopsUnderFault : Prop :=
  ∀ s : State, s.env.params.addrOob = .fault →
    (∀ x, 4096 < s.i.toNat + 3 → RaisesProgramError (.ldBcd x) s) ∧
    (∀ x : RegIdx, 4096 < s.i.toNat + (x.val + 1) →
      RaisesProgramError (.storeRegs x) s ∧ RaisesProgramError (.loadRegs x) s) ∧
    (∀ x y rows, 0 < rows → 4096 < s.i.toNat + rows → RaisesProgramError (.drw x y rows) s) ∧
    (∀ rnd, s.fault.kind = .noFault → 4096 < s.pc.toNat + 2 →
      ∃ t, transact (.step rnd) s = .next t ∧ t.mode = .running ∧
        LatchesOnly { kind := .programError (max s.pc.toNat 4096), pc := s.pc, opcode := t.fault.opcode }
          { s with env := { s.env with rnd := rnd, draws := s.env.draws + 1 } } t ∧
        response (.step rnd) t = .faulted (.programError (max s.pc.toNat 4096)) s.pc t.fault.opcode)

/-- A store to the next instruction's bytes is what the next STEP fetches, with no fence (R64, R277; the spec's own decision
D25): after FX55 with X = 1 and I = pc, the fetched word is V0 and then V1. -/
def Obligations.FetchSeesTheStoreBeforeIt : Prop :=
  ∀ s : State, MemoryOk s → AccessOk s s.pc.toNat 2 → s.i = s.pc →
    ∃ t, exec (.storeRegs 1) s = .next t ∧ t.pc = s.pc ∧
      t.fetchWord.toNat = 256 * (s.reg 0).toNat + (s.reg 1).toNat

/-! Framebuffer. -/

/-- 00E0: every pixel is 0 and REDRAW is 1, whatever the screen held; nothing else changes (R200; that REDRAW is set with no
pixel changed is the spec's own decision D20). -/
def Obligations.ClearScreenBlanksEveryPixel : Prop :=
  RowDecodes 0xFFFF 0x00E0 (fun _ => .cls) ∧
  ∀ s : State, ∃ t, exec .cls s = .next t ∧ ChangesOnly [] [.screen] s t ∧ t.redraw = true ∧
    ∀ (row : Fin 32) (col : Fin 64), t.fb[row][col] = false

/-- DXYN: each pixel is flipped exactly when a set sprite bit lands on it, with coordinates from the old V[x] and V[y]; VF is
1 when a pixel that was set is flipped and else 0; REDRAW is 1; nothing else changes, whichever registers x and y are (R201,
R202, R203; the edge parameter, N = 0, REDRAW, the latched operands and the address wrap are the spec's own decisions D8,
D21, D20, D4 and D2). -/
def Obligations.DrawFlipsExactlyTheSpritesPixels : Prop :=
  RowDecodes 0xF000 0xD000 (fun w => .drw (digitX w) (digitY w) (digitN w)) ∧
  ∀ (s : State) (x y : RegIdx) (rows : Nat), rows < 16 → AccessOk s s.i.toNat rows →
    ∃ t, exec (.drw x y rows) s = .next t ∧ ChangesOnly [15] [.screen] s t ∧ t.redraw = true ∧
      (∀ (row : Fin 32) (col : Fin 64),
        (SpriteCovers s x y rows row col → t.fb[row][col] = !s.fb[row][col]) ∧
        (¬ SpriteCovers s x y rows row col → t.fb[row][col] = s.fb[row][col])) ∧
      ((∃ (row : Fin 32) (col : Fin 64), SpriteCovers s x y rows row col ∧ s.fb[row][col] = true) → t.reg 15 = 0x01) ∧
      (¬ (∃ (row : Fin 32) (col : Fin 64), SpriteCovers s x y rows row col ∧ s.fb[row][col] = true) → t.reg 15 = 0x00)

/-- Drawing a sprite twice at one place, with the registers as they were, restores the screen; the second draw leaves VF at 1
exactly when the first turned a pixel on; so under DRAW_EDGE = wrap, the spec's own decision D8, when the first found no
collision and the sprite has a set bit (R201; spec/95_test_vectors.md L1.6; log 19 says where R201's sentence claims more). -/
def Obligations.DrawingTwiceRestoresTheScreen : Prop :=
  ∀ (s : State) (x y : RegIdx) (rows : Nat), rows < 16 → AccessOk s s.i.toNat rows →
    ∃ t u, exec (.drw x y rows) s = .next t ∧ exec (.drw x y rows) { t with v := s.v } = .next u ∧ u.fb = s.fb ∧
      (u.reg 15 = 0x01 ↔ ∃ (row : Fin 32) (col : Fin 64), SpriteCovers s x y rows row col ∧ s.fb[row][col] = false) ∧
      (s.env.params.drawEdge = .wrap → t.reg 15 = 0x00 → (∃ r < rows, ∃ c < 8, SpriteBit s r c) → u.reg 15 = 0x01)

/-! Keys and timers. -/

/-- EX9E and EXA1: the next word is skipped when the key V[x] is, or is not, held; for V[x] of 0x10 or more no key is held,
which is the spec's own decision D10; only pc changes (R220, R221, R226). -/
def Obligations.SkipOnKey : Prop :=
  RowDecodes 0xF0FF 0xE09E (fun w => .skp (digitX w)) ∧
  RowDecodes 0xF0FF 0xE0A1 (fun w => .sknp (digitX w)) ∧
  ∀ (s : State) (x : RegIdx),
    (∃ t, exec (.skp x) s = .next t ∧ ChangesOnly [] [.pc] s t ∧
      t.pc = if s.keys[(s.reg x).toNat]? = some true then s.pc + 2 else s.pc) ∧
    (∃ t, exec (.sknp x) s = .next t ∧ ChangesOnly [] [.pc] s t ∧
      t.pc = if s.keys[(s.reg x).toNat]? = some true then s.pc else s.pc + 2)

/-- FX0A: with a key held, V[x] takes the lowest held key and MODE is RUNNING; with none, pc steps back by 2, MODE is
AWAITING-KEY and nothing else changes; the STEP returns Ok in both cases, a blocked FX0A included (R222, R117, R105; the details
are the spec's own decision D28). -/
def Obligations.WaitKeyTakesTheLowestHeldKey : Prop :=
  RowDecodes 0xF0FF 0xF00A (fun w => .ldKey (digitX w)) ∧
  ∀ (s : State) (x : RegIdx),
    (∀ k : KeyIdx, s.keys[k] = true → (∀ j : KeyIdx, j < k → s.keys[j] = false) →
      ∃ t, exec (.ldKey x) s = .next t ∧ (t.reg x).toNat = k.val ∧ ChangesOnly [x] [] s t ∧
        (s.fault.kind = .noFault → ∀ rnd, response (.step rnd) t = .ok)) ∧
    ((∀ k : KeyIdx, s.keys[k] = false) →
      ∃ t, exec (.ldKey x) s = .next t ∧ t = { s with pc := s.pc - 2, mode := .awaitingKey } ∧
        (s.fault.kind = .noFault → ∀ rnd, response (.step rnd) t = .ok))

/-- FX07, FX15 and FX18: V[x] takes DT, DT takes V[x], ST takes V[x]; nothing else changes (R223, R224, R225). -/
def Obligations.TimerRegistersMove : Prop :=
  RowDecodes 0xF0FF 0xF007 (fun w => .ldFromDt (digitX w)) ∧
  RowDecodes 0xF0FF 0xF015 (fun w => .ldDt (digitX w)) ∧
  RowDecodes 0xF0FF 0xF018 (fun w => .ldSt (digitX w)) ∧
  ∀ (s : State) (x : RegIdx),
    (∃ t, exec (.ldFromDt x) s = .next t ∧ t.reg x = s.dt ∧ ChangesOnly [x] [] s t) ∧
    (∃ t, exec (.ldDt x) s = .next t ∧ t.dt = s.reg x ∧ ChangesOnly [] [.delay] s t) ∧
    (∃ t, exec (.ldSt x) s = .next t ∧ t.st = s.reg x ∧ ChangesOnly [] [.sound] s t)

/-! Rules of the whole machine. -/

/-- Every instruction gives a next state in every state, and each piece of state is written only by the instructions its rule
names: the V registers (R22), I (R25), pc beside the fetch advance and reset (R26), SP and S (R27), DT and ST (R28), FB (R29),
REDRAW (R30), memory (R58), FAULT (R240, and R51's ProgramError under ADDR_OOB = fault) and MODE (R117); KEY, the parameters and
the inputs by none (R31, R36). -/
def Obligations.EachPieceHasItsWriters : Prop :=
  ∀ (i : Instr) (s : State), ∃ t, exec i s = .next t ∧
    t.keys = s.keys ∧ t.env = s.env ∧
    (t.v ≠ s.v → i.mnemonic ∈ ["6XNN", "7XNN", "8XY0", "8XY1", "8XY2", "8XY3", "8XY4", "8XY5", "8XY6", "8XY7", "8XYE",
      "CXNN", "DXYN", "FX07", "FX0A", "FX65"]) ∧
    (t.i ≠ s.i → i.mnemonic ∈ ["ANNN", "FX1E", "FX29"]) ∧
    (t.pc ≠ s.pc → i.mnemonic ∈ ["3XNN", "4XNN", "5XY0", "9XY0", "EX9E", "EXA1", "1NNN", "BNNN", "2NNN", "00EE", "FX0A"]) ∧
    (t.sp ≠ s.sp ∨ t.stack ≠ s.stack → i.mnemonic ∈ ["2NNN", "00EE"]) ∧
    (t.dt ≠ s.dt → i.mnemonic = "FX15") ∧
    (t.st ≠ s.st → i.mnemonic = "FX18") ∧
    (t.fb ≠ s.fb ∨ t.redraw ≠ s.redraw → i.mnemonic ∈ ["00E0", "DXYN"]) ∧
    (t.mem ≠ s.mem → i.mnemonic ∈ ["FX33", "FX55"]) ∧
    (t.fault ≠ s.fault → i.mnemonic ∈ ["2NNN", "00EE"] ∨
      s.env.params.addrOob = .fault ∧ i.mnemonic ∈ ["DXYN", "FX33", "FX55", "FX65"]) ∧
    (t.mode ≠ .running → i.mnemonic = "FX0A")

/-- MODE changes no instruction's meaning (R33). -/
def Obligations.ModeChangesNoMeaning : Prop :=
  ∀ (i : Instr) (s : State) (m : Mode), exec i { s with mode := m } = exec i s

/-- The STEP's random byte reaches nothing but CXNN (R104; the free byte is the spec's own decision D18). -/
def Obligations.OnlyRandomInstructionReadsTheRandomByte : Prop :=
  ∀ (i : Instr) (s : State) (rnd : Byte), i.mnemonic ≠ "CXNN" →
    exec i (s.latchRnd rnd) = mapNext (fun t => t.latchRnd rnd) (exec i s)

/-- No instruction reads a stack entry at or above SP: two states that differ there at most go to such states again (R37). -/
def Obligations.StaleStackEntriesAreNeverRead : Prop :=
  ∀ (i : Instr) (s₁ s₂ t₁ : State), SameButStale s₁ s₂ → exec i s₁ = .next t₁ →
    ∃ t₂, exec i s₂ = .next t₂ ∧ SameButStale t₁ t₂

/-- Every step, whichever transaction it performs, keeps the invariant: memory in canonical form, FAULT naming a word or an
address value that can have raised it, and a latched fault precise in pc, MODE and SP, ProgramError under ADDR_OOB = fault only
(R34, R59, R241, R245, R51; the form of memory is log 9, the record of ProgramError logs 3 and 20; the latch is the spec's own
decisions D15 and D16). -/
def Obligations.EveryStepKeepsTheInvariant : Prop :=
  ∀ s t : State, s.Inv → step s = .next t → t.Inv

/-- The invariant holds in the state after RESET. -/
def Obligations.ResetStateHoldsTheInvariant : Prop := State.reset.Inv

/-! The host's transactions. -/

/-- RESET, in whatever state, leaves every element at R38's value, the font in its cells and zero in every other (R270, R38;
the released keys and the cleared FAULT are the spec's own decisions D22 and D15). That it keeps the parameters and the
transactions the host has yet to issue (the last clause) is the model's choice, log 12. -/
def Obligations.ResetLeavesTheResetValues : Prop :=
  ∀ s : State, ∃ t, transact .reset s = .next t ∧
    (∀ x, t.reg x = 0x00) ∧ t.i = 0x0000 ∧ t.pc = 0x0200 ∧ t.sp.val = 0 ∧ (∀ k : Fin 16, t.stack[k] = 0x0000) ∧
    t.dt = 0x00 ∧ t.st = 0x00 ∧ (∀ (row : Fin 32) (col : Fin 64), t.fb[row][col] = false) ∧ t.redraw = false ∧
    (∀ k : KeyIdx, t.keys[k] = false) ∧ t.mode = .running ∧ t.fault = { kind := .noFault, pc := 0, opcode := 0 } ∧
    (∀ k : Fin 80, t.cell (0x050 + k.val) = s.env.params.font[k]) ∧
    (∀ a, a < 0x050 ∨ 0x09F < a → t.cell a = 0x00) ∧ t.env = s.env

/-- With nothing loaded, the first STEP after reset, whatever its random byte, executes the zero word at 0x0200 and raises
UnknownOpcode (R272; that the word is illegal, the record and the pc are the spec's own decisions D3, D16 and D15). So does the
machine's first step from the reset state: that it is a STEP with nothing loaded is the model's choice, logs 5 and 7. -/
def Obligations.UnloadedCoreFaultsAtOnce : Prop :=
  (∀ rnd, ∃ t, transact (.step rnd) State.reset = .next t ∧ t.pc = 0x0202 ∧
    t.fault = { kind := .unknownOpcode, pc := 0x0200, opcode := 0x0000 }) ∧
  ∃ t, step State.reset = .next t ∧ t.pc = 0x0202 ∧
    t.fault = { kind := .unknownOpcode, pc := 0x0200, opcode := 0x0000 }

/-- LOAD of an image of at most 3584 bytes puts byte i into cell 0x200 + i and changes no other cell and nothing else; a
longer image changes nothing and is reported as ImageTooLarge (R66, R255; the spec's own decision D23). -/
def Obligations.LoadInstallsTheImageOrNothing : Prop :=
  ∀ (s : State) (image : List Byte), MemoryOk s →
    ∃ t, transact (.load image) s = .next t ∧
      (image.length ≤ 3584 → t = { s with mem := t.mem } ∧ response (.load image) t = .ok ∧
        (∀ k : Fin image.length, t.cell (0x200 + k.val) = image[k]) ∧
        (∀ a, a < 0x200 ∨ 0x200 + image.length ≤ a → t.cell a = s.cell a)) ∧
      (3584 < image.length → t = s ∧ response (.load image) t = .imageTooLarge)

/-- One tick takes each timer down by one unless it is 0, and writes no other state (R252). -/
def Obligations.TickCountsBothTimersDown : Prop :=
  ∀ s : State, ∃ t, transact (.tick 1) s = .next t ∧ t = { s with dt := t.dt, st := t.st } ∧
    (t.dt.toNat = if 0 < s.dt.toNat then s.dt.toNat - 1 else 0) ∧
    (t.st.toNat = if 0 < s.st.toNat then s.st.toNat - 1 else 0)

/-- TICK(n) is n ticks of one, and leaves max(0, DT − n) and max(0, ST − n) (R253). -/
def Obligations.TicksAddUp : Prop :=
  ∀ (n : Nat) (s : State), ∃ t, transact (.tick n) s = .next t ∧
    runTransactions (List.replicate n (.tick 1)) s = .next t ∧
    (t.dt.toNat : Int) = max 0 ((s.dt.toNat : Int) - n) ∧ (t.st.toNat : Int) = max 0 ((s.st.toNat : Int) - n)

/-- SET_KEY writes its one key; CLEAR_REDRAW clears REDRAW; the reads return the screen with REDRAW, DT, ST, MODE with FAULT,
and change nothing (R103, R107, R108; the spec's own decisions D20 and D29). -/
def Obligations.KeyInputAndReadsActOnTheirOwnPiece : Prop :=
  ∀ s : State,
    (∀ (k : KeyIdx) (p : Bool), ∃ t, transact (.setKey k p) s = .next t ∧ t = { s with keys := t.keys } ∧
      ∀ j : KeyIdx, t.keys[j] = if j = k then p else s.keys[j]) ∧
    transact .clearRedraw s = .next { s with redraw := false } ∧
    transact .readFb s = .next s ∧ response .readFb s = .screen s.fb s.redraw ∧
    transact .readDt s = .next s ∧ response .readDt s = .timer s.dt ∧
    transact .readSt s = .next s ∧ response .readSt s = .timer s.st ∧
    transact .readStatus s = .next s ∧ response .readStatus s = .status s.mode s.fault
end

