-- ==== Sys2Proof/Laws/Decode.lean ====
section
/-! SUPPORT. The fields of a word and the words of the formats as numbers, and what each format's fields read back as. -/

namespace Sys2Proof

/-! Fields (R81). -/

theorem opField_eq (w : Word) : opField w = w.toNat / 4096 := by
  have := w.isLt
  simp only [opField, BitVec.extractLsb'_toNat, Nat.shiftRight_eq_div_pow]
  omega

theorem xField_val (w : Word) : (xField w).val = w.toNat / 256 % 16 := by
  simp only [xField, BitVec.val_toFin, BitVec.extractLsb'_toNat, Nat.shiftRight_eq_div_pow]

theorem yField_val (w : Word) : (yField w).val = w.toNat / 16 % 16 := by
  simp only [yField, BitVec.val_toFin, BitVec.extractLsb'_toNat, Nat.shiftRight_eq_div_pow]

theorem nField_eq (w : Word) : nField w = w.toNat % 16 := by
  simp only [nField, BitVec.extractLsb'_toNat, Nat.shiftRight_zero]

theorem nnField_toNat (w : Word) : (nnField w).toNat = w.toNat % 256 := by
  simp only [nnField, BitVec.extractLsb'_toNat, Nat.shiftRight_zero]

theorem nnnField_toNat (w : Word) : (nnnField w).toNat = w.toNat % 4096 := by
  simp only [nnnField, BitVec.toNat_setWidth, BitVec.extractLsb'_toNat, Nat.shiftRight_zero]
  omega

/-! Masks of the opcode table, as numbers. -/

theorem and_F000_toNat (w : Word) : (w &&& 0xF000#16).toNat = w.toNat / 4096 * 4096 := by
  have h : w &&& 0xF000#16 = (w >>> 12) <<< 12 := by
    ext i hi
    simp
    interval_cases i <;> simp
  have := w.isLt
  rw [h]
  simp only [BitVec.toNat_shiftLeft, BitVec.toNat_ushiftRight, Nat.shiftRight_eq_div_pow, Nat.shiftLeft_eq]
  omega

theorem and_F000_iff (w p : Word) : w &&& 0xF000#16 = p ↔ w.toNat / 4096 * 4096 = p.toNat := by
  rw [← BitVec.toNat_inj, and_F000_toNat]

theorem and_F00F_iff (w p : Word) : w &&& 0xF00F#16 = p ↔ w.toNat / 4096 * 4096 + w.toNat % 16 = p.toNat := by
  have h : w &&& 0xF00F#16 = (w &&& 0xF000#16) + (w &&& 0x000F#16) := by
    rw [BitVec.add_eq_or_of_and_eq_zero]
    · rw [← BitVec.and_or_distrib_left]; rfl
    · ext i hi
      simp
      interval_cases i <;> simp
  have hl : (w &&& 0x000F#16).toNat = w.toNat % 16 := by
    rw [BitVec.toNat_and]; exact Nat.and_two_pow_sub_one_eq_mod _ 4
  have := w.isLt
  rw [← BitVec.toNat_inj, h, BitVec.toNat_add, and_F000_toNat, hl]
  omega

theorem and_F0FF_iff (w p : Word) : w &&& 0xF0FF#16 = p ↔ w.toNat / 4096 * 4096 + w.toNat % 256 = p.toNat := by
  have h : w &&& 0xF0FF#16 = (w &&& 0xF000#16) + (w &&& 0x00FF#16) := by
    rw [BitVec.add_eq_or_of_and_eq_zero]
    · rw [← BitVec.and_or_distrib_left]; rfl
    · ext i hi
      simp
      interval_cases i <;> simp
  have hl : (w &&& 0x00FF#16).toNat = w.toNat % 256 := by
    rw [BitVec.toNat_and]; exact Nat.and_two_pow_sub_one_eq_mod _ 8
  have := w.isLt
  rw [← BitVec.toNat_inj, h, BitVec.toNat_add, and_F000_toNat, hl]
  omega

theorem and_FFFF_iff (w p : Word) : w &&& 0xFFFF#16 = p ↔ w = p := by
  rw [show w &&& 0xFFFF#16 = w from BitVec.and_allOnes]

/-! Formats (R82). -/

/-- The value of two fields side by side. -/
theorem append_toNat {m n : Nat} (a : BitVec m) (b : BitVec n) : (a ++ b).toNat = a.toNat * 2 ^ n + b.toNat := by
  rw [BitVec.toNat_append, ← Nat.shiftLeft_add_eq_or_of_lt b.isLt, Nat.shiftLeft_eq]

theorem joinBytes_toNat (hi lo : Byte) : (joinBytes hi lo).toNat = hi.toNat * 256 + lo.toNat := append_toNat hi lo

theorem formatA_toNat (op : BitVec 4) (addr : Word) : (formatA op addr).toNat = op.toNat * 4096 + addr.toNat % 4096 := by
  rw [formatA, append_toNat, BitVec.toNat_setWidth]
  rfl

theorem formatB_toNat (op : BitVec 4) (x : RegIdx) (nn : Byte) :
    (formatB op x nn).toNat = op.toNat * 4096 + x.val * 256 + nn.toNat := by
  have : (BitVec.ofFin x : BitVec 4).toNat = x.val := rfl
  rw [formatB, append_toNat, append_toNat, this]
  omega

theorem formatR_toNat (op : BitVec 4) (x y : RegIdx) (n : BitVec 4) :
    (formatR op x y n).toNat = op.toNat * 4096 + x.val * 256 + y.val * 16 + n.toNat := by
  have hx : (BitVec.ofFin x : BitVec 4).toNat = x.val := rfl
  have hy : (BitVec.ofFin y : BitVec 4).toNat = y.val := rfl
  rw [formatR, append_toNat, append_toNat, append_toNat, hx, hy]
  omega

/-! What the fields of a format's word are. -/

@[simp] theorem opField_formatA (op : BitVec 4) (addr : Word) : opField (formatA op addr) = op.toNat := by
  have := op.isLt
  rw [opField_eq, formatA_toNat]; omega

@[simp] theorem opField_formatB (op : BitVec 4) (x : RegIdx) (nn : Byte) : opField (formatB op x nn) = op.toNat := by
  have := op.isLt; have := x.isLt; have := nn.isLt
  rw [opField_eq, formatB_toNat]; omega

@[simp] theorem opField_formatR (op : BitVec 4) (x y : RegIdx) (n : BitVec 4) :
    opField (formatR op x y n) = op.toNat := by
  have := op.isLt; have := x.isLt; have := y.isLt; have := n.isLt
  rw [opField_eq, formatR_toNat]; omega

@[simp] theorem xField_formatB (op : BitVec 4) (x : RegIdx) (nn : Byte) : xField (formatB op x nn) = x := by
  have := op.isLt; have := x.isLt; have := nn.isLt
  apply Fin.ext; rw [xField_val, formatB_toNat]; omega

@[simp] theorem nnField_formatB (op : BitVec 4) (x : RegIdx) (nn : Byte) : nnField (formatB op x nn) = nn := by
  have := op.isLt; have := x.isLt; have := nn.isLt
  apply BitVec.eq_of_toNat_eq; rw [nnField_toNat, formatB_toNat]; omega

@[simp] theorem xField_formatR (op : BitVec 4) (x y : RegIdx) (n : BitVec 4) : xField (formatR op x y n) = x := by
  have := op.isLt; have := x.isLt; have := y.isLt; have := n.isLt
  apply Fin.ext; rw [xField_val, formatR_toNat]; omega

@[simp] theorem yField_formatR (op : BitVec 4) (x y : RegIdx) (n : BitVec 4) : yField (formatR op x y n) = y := by
  have := op.isLt; have := x.isLt; have := y.isLt; have := n.isLt
  apply Fin.ext; rw [yField_val, formatR_toNat]; omega

@[simp] theorem nField_formatR (op : BitVec 4) (x y : RegIdx) (n : BitVec 4) : nField (formatR op x y n) = n.toNat := by
  have := op.isLt; have := x.isLt; have := y.isLt; have := n.isLt
  rw [nField_eq, formatR_toNat]; omega

/-- An address operand that fits NNN is read back whole. -/
theorem nnnField_formatA (op : BitVec 4) (addr : Word) (h : addrFits addr = true) : nnnField (formatA op addr) = addr := by
  have := op.isLt; have := addr.isLt
  simp only [addrFits, decide_eq_true_eq] at h
  apply BitVec.eq_of_toNat_eq; rw [nnnField_toNat, formatA_toNat]; omega

/-- The two bytes of a word, joined, are the word. -/
@[simp] theorem joinBytes_hi_lo (w : Word) : joinBytes (hiByte w) (loByte w) = w := by
  apply BitVec.eq_of_toNat_eq
  have := w.isLt
  simp only [joinBytes_toNat, hiByte, loByte, BitVec.extractLsb'_toNat, Nat.shiftRight_eq_div_pow]
  omega

end Sys2Proof
end

