-- ==== Sys2Proof/Laws/Memory.lean ====
section
/-! SUPPORT. Memory: a read after a write, and every operation keeps the canonical form. -/

namespace Sys2Proof.Machine

variable (font : Vector Byte 80)

theorem Memory.wf_nil : Memory.wf font [] := by simp [Memory.wf]

theorem addrOf_lt (v : Nat) : addrOf v < 4096 := Nat.mod_lt _ (by decide)

theorem addrOf_of_lt {v : Nat} (h : v < 4096) : addrOf v = v := Nat.mod_eq_of_lt h

theorem Memory.read_consCell (a : Nat) (b : Byte) (rest : Memory) (hr : ∀ c ∈ rest, a < c.1) (a' : Nat) :
    Memory.read font (Memory.consCell font a b rest) a' = if a = a' then b else Memory.read font rest a' := by
  unfold Memory.consCell
  split
  · rename_i hb
    split
    · rename_i ha
      subst ha
      have : ∀ m : Memory, (∀ c ∈ m, a < c.1) → Memory.read font m a = resetByte font a := by
        intro m hm
        induction m with
        | nil => rfl
        | cons c m ih =>
          have hc := hm c (by simp)
          rw [Memory.read, if_neg (by omega)]
          exact ih fun d hd => hm d (by simp [hd])
      rw [this rest hr, hb]
    · rfl
  · rfl

/-- In a canonical memory a write changes its own cell and no other. -/
theorem Memory.read_write (m : Memory) (hm : Memory.wf font m) (a : Nat) (b : Byte) (a' : Nat) :
    Memory.read font (Memory.write font m a b) a' = if a = a' then b else Memory.read font m a' := by
  induction m with
  | nil => exact Memory.read_consCell font a b [] (by simp) a'
  | cons c m ih =>
    have hp := List.pairwise_cons.mp hm.1
    rw [Memory.write]
    split
    · rename_i h
      refine Memory.read_consCell font a b _ ?_ a'
      intro d hd
      rcases List.mem_cons.mp hd with rfl | hd
      · exact h
      · exact Nat.lt_trans h (hp.1 d hd)
    · split
      · rename_i h
        rw [Memory.read_consCell font a b _ (fun d hd => h ▸ hp.1 d hd)]
        simp only [Memory.read]
        split <;> simp_all
      · rename_i h1 h2
        simp only [Memory.read]
        rw [ih ⟨hp.2, fun d hd => hm.2 d (by simp [hd])⟩]
        split <;> split <;> simp_all

/-- Every cell listed after a write was listed before it, or is the written cell. -/
theorem Memory.mem_write (m : Memory) (a : Nat) (b : Byte) (d : Host.Cell) (hd : d ∈ Memory.write font m a b) :
    (d = (a, b) ∧ b ≠ resetByte font a) ∨ d ∈ m := by
  induction m with
  | nil =>
    rw [Memory.write, Memory.consCell] at hd
    split at hd <;> simp_all
  | cons c m ih =>
    rw [Memory.write] at hd
    split at hd
    · rw [Memory.consCell] at hd
      split at hd <;> simp_all
    · split at hd
      · rw [Memory.consCell] at hd
        split at hd
        · simp_all
        · rcases List.mem_cons.mp hd with h | h <;> simp_all
      · rcases List.mem_cons.mp hd with h | h
        · simp_all
        · rcases ih h with h | h <;> simp_all

/-- A write of a cell of the memory keeps the canonical form. -/
theorem Memory.write_wf (m : Memory) (hm : Memory.wf font m) (a : Nat) (ha : a < 4096) (b : Byte) :
    Memory.wf font (Memory.write font m a b) := by
  refine ⟨?_, ?_⟩
  · induction m with
    | nil =>
      rw [Memory.write, Memory.consCell]
      split <;> simp
    | cons c m ih =>
      have hp := List.pairwise_cons.mp hm.1
      rw [Memory.write]
      split
      · rename_i h
        rw [Memory.consCell]
        split
        · exact hm.1
        · refine List.pairwise_cons.mpr ⟨?_, hm.1⟩
          intro d hd
          rcases List.mem_cons.mp hd with rfl | hd
          · exact h
          · exact Nat.lt_trans h (hp.1 d hd)
      · split
        · rename_i h
          rw [Memory.consCell]
          split
          · exact hp.2
          · exact List.pairwise_cons.mpr ⟨fun d hd => h ▸ hp.1 d hd, hp.2⟩
        · rename_i h1 h2
          refine List.pairwise_cons.mpr ⟨?_, ih ⟨hp.2, fun d hd => hm.2 d (by simp [hd])⟩⟩
          intro d hd
          rcases Memory.mem_write font m a b d hd with ⟨rfl, -⟩ | hd
          · simp only; omega
          · exact hp.1 d hd
  · intro d hd
    rcases Memory.mem_write font m a b d hd with ⟨rfl, h⟩ | hd
    · exact ⟨ha, h⟩
    · exact hm.2 d hd

/-- A run of writes through the address unit keeps the canonical form. -/
theorem Memory.writeBytes_wf (m : Memory) (hm : Memory.wf font m) (base : Nat) (bs : List Byte) :
    Memory.wf font (Memory.writeBytes font m base bs) := by
  induction bs generalizing m base with
  | nil => exact hm
  | cons b bs ih => exact ih _ (Memory.write_wf font m hm _ (addrOf_lt base) b) (base + 1)

/-- A run of writes leaves every cell outside it as it was. -/
theorem Memory.read_writeBytes_other (m : Memory) (hm : Memory.wf font m) (base : Nat) (bs : List Byte) (a : Nat)
    (ha : ∀ k < bs.length, addrOf (base + k) ≠ a) :
    Memory.read font (Memory.writeBytes font m base bs) a = Memory.read font m a := by
  induction bs generalizing m base with
  | nil => rfl
  | cons b bs ih =>
    rw [Memory.writeBytes, ih _ (Memory.write_wf font m hm _ (addrOf_lt base) b), Memory.read_write font m hm,
      if_neg (by simpa using ha 0 (by simp))]
    intro k hk
    have := ha (k + 1) (by simpa using hk)
    rwa [Nat.add_assoc, Nat.add_comm 1 k]

/-- A run of at most 4096 writes leaves each byte in its cell. -/
theorem Memory.read_writeBytes_inside (m : Memory) (hm : Memory.wf font m) (base : Nat) (bs : List Byte)
    (hl : bs.length ≤ 4096) (k : Nat) (hk : k < bs.length) :
    Memory.read font (Memory.writeBytes font m base bs) (addrOf (base + k)) = bs[k] := by
  induction bs generalizing m base k with
  | nil => simp at hk
  | cons b bs ih =>
    have hw := Memory.write_wf font m hm _ (addrOf_lt base) b
    have hl' : bs.length + 1 ≤ 4096 := hl
    rw [Memory.writeBytes]
    cases k with
    | zero =>
      rw [Memory.read_writeBytes_other font _ hw, Memory.read_write font m hm]
      · simp
      · intro j hj
        simp only [addrOf, Config.memSize, Nat.add_zero]
        omega
    | succ k =>
      have := ih _ hw (base + 1) (by omega) k (by simpa using hk)
      rw [Nat.add_assoc, Nat.add_comm 1 k] at this
      simpa using this

@[simp] theorem Memory.readBytes_length (m : Memory) (base n : Nat) :
    (Memory.readBytes font m base n).length = n := by
  induction n generalizing base with
  | zero => rfl
  | succ n ih => simp [Memory.readBytes, ih]

/-- The k-th byte of a run of reads is the byte of the cell the address unit gives for its address value. -/
theorem Memory.readBytes_get (m : Memory) (base n k : Nat) (hk : k < n) :
    (Memory.readBytes font m base n)[k]? = some (Memory.read font m (addrOf (base + k))) := by
  induction n generalizing base k with
  | zero => omega
  | succ n ih =>
    cases k with
    | zero => simp [Memory.readBytes]
    | succ k =>
      rw [Memory.readBytes, List.getElem?_cons_succ, ih (base + 1) k (by omega), Nat.add_assoc, Nat.add_comm 1 k]

/-- The address unit never faults under ADDR_OOB = wrap (R51). -/
@[simp] theorem firstOutOfRange_wrap (base n : Nat) : firstOutOfRange .wrap base n = none := by
  cases n <;> rfl

/-- Under ADDR_OOB = fault it faults on the first address value of 4096 or more (R51). -/
theorem firstOutOfRange_fault (base n : Nat) :
    firstOutOfRange .fault base n = if base + n ≤ 4096 ∨ n = 0 then none else some (max base 4096) := by
  induction n generalizing base with
  | zero => simp [firstOutOfRange]
  | succ n ih =>
    rw [firstOutOfRange]
    simp only [Config.memSize, ih]
    split
    · rw [if_neg (by omega)]; simp; omega
    · by_cases h : base + (n + 1) ≤ 4096
      · rw [if_pos (by omega), if_pos (by omega)]
      · rw [if_neg (by omega), if_neg (by omega)]; simp; omega

/-- What an address value that the address unit faults on is like (R51). -/
theorem firstOutOfRange_some {p : AddrOob} {base n v : Nat} (h : firstOutOfRange p base n = some v) :
    p = .fault ∧ v = max base 4096 ∧ v < base + n := by
  cases p
  · simp at h
  · rw [firstOutOfRange_fault] at h
    split at h
    · cases h
    · cases h
      refine ⟨rfl, rfl, ?_⟩
      omega

end Sys2Proof.Machine
end

