-- ==== Sys2Proof/Laws/State.lean ====
section
/-! SUPPORT. What each update of the state leaves in each field, in each register and in each cell: one lemma each, true by
rfl. -/

namespace Sys2Proof.Machine

variable (s : State)

/-! setReg -/

@[simp] theorem setReg_v (x : RegIdx) (b : Byte) : (s.setReg x b).v = s.v.set x b x.isLt := rfl
@[simp] theorem setReg_i (x : RegIdx) (b : Byte) : (s.setReg x b).i = s.i := rfl
@[simp] theorem setReg_pc (x : RegIdx) (b : Byte) : (s.setReg x b).pc = s.pc := rfl
@[simp] theorem setReg_sp (x : RegIdx) (b : Byte) : (s.setReg x b).sp = s.sp := rfl
@[simp] theorem setReg_stack (x : RegIdx) (b : Byte) : (s.setReg x b).stack = s.stack := rfl
@[simp] theorem setReg_dt (x : RegIdx) (b : Byte) : (s.setReg x b).dt = s.dt := rfl
@[simp] theorem setReg_st (x : RegIdx) (b : Byte) : (s.setReg x b).st = s.st := rfl
@[simp] theorem setReg_fb (x : RegIdx) (b : Byte) : (s.setReg x b).fb = s.fb := rfl
@[simp] theorem setReg_redraw (x : RegIdx) (b : Byte) : (s.setReg x b).redraw = s.redraw := rfl
@[simp] theorem setReg_keys (x : RegIdx) (b : Byte) : (s.setReg x b).keys = s.keys := rfl
@[simp] theorem setReg_mode (x : RegIdx) (b : Byte) : (s.setReg x b).mode = s.mode := rfl
@[simp] theorem setReg_fault (x : RegIdx) (b : Byte) : (s.setReg x b).fault = s.fault := rfl
@[simp] theorem setReg_mem (x : RegIdx) (b : Byte) : (s.setReg x b).mem = s.mem := rfl
@[simp] theorem setReg_env (x : RegIdx) (b : Byte) : (s.setReg x b).env = s.env := rfl
@[simp] theorem setReg_cell (x : RegIdx) (b : Byte) (a' : Nat) : (s.setReg x b).cell a' = s.cell a' := rfl

/-! setRegs -/

@[simp] theorem setRegs_v (bs : List Byte) : (s.setRegs bs).v = loadRegFile s.v 0 bs := rfl
@[simp] theorem setRegs_i (bs : List Byte) : (s.setRegs bs).i = s.i := rfl
@[simp] theorem setRegs_pc (bs : List Byte) : (s.setRegs bs).pc = s.pc := rfl
@[simp] theorem setRegs_sp (bs : List Byte) : (s.setRegs bs).sp = s.sp := rfl
@[simp] theorem setRegs_stack (bs : List Byte) : (s.setRegs bs).stack = s.stack := rfl
@[simp] theorem setRegs_dt (bs : List Byte) : (s.setRegs bs).dt = s.dt := rfl
@[simp] theorem setRegs_st (bs : List Byte) : (s.setRegs bs).st = s.st := rfl
@[simp] theorem setRegs_fb (bs : List Byte) : (s.setRegs bs).fb = s.fb := rfl
@[simp] theorem setRegs_redraw (bs : List Byte) : (s.setRegs bs).redraw = s.redraw := rfl
@[simp] theorem setRegs_keys (bs : List Byte) : (s.setRegs bs).keys = s.keys := rfl
@[simp] theorem setRegs_mode (bs : List Byte) : (s.setRegs bs).mode = s.mode := rfl
@[simp] theorem setRegs_fault (bs : List Byte) : (s.setRegs bs).fault = s.fault := rfl
@[simp] theorem setRegs_mem (bs : List Byte) : (s.setRegs bs).mem = s.mem := rfl
@[simp] theorem setRegs_env (bs : List Byte) : (s.setRegs bs).env = s.env := rfl
@[simp] theorem setRegs_cell (bs : List Byte) (a' : Nat) : (s.setRegs bs).cell a' = s.cell a' := rfl

/-! setI -/

@[simp] theorem setI_v (w : Word) : (s.setI w).v = s.v := rfl
@[simp] theorem setI_i (w : Word) : (s.setI w).i = w := rfl
@[simp] theorem setI_pc (w : Word) : (s.setI w).pc = s.pc := rfl
@[simp] theorem setI_sp (w : Word) : (s.setI w).sp = s.sp := rfl
@[simp] theorem setI_stack (w : Word) : (s.setI w).stack = s.stack := rfl
@[simp] theorem setI_dt (w : Word) : (s.setI w).dt = s.dt := rfl
@[simp] theorem setI_st (w : Word) : (s.setI w).st = s.st := rfl
@[simp] theorem setI_fb (w : Word) : (s.setI w).fb = s.fb := rfl
@[simp] theorem setI_redraw (w : Word) : (s.setI w).redraw = s.redraw := rfl
@[simp] theorem setI_keys (w : Word) : (s.setI w).keys = s.keys := rfl
@[simp] theorem setI_mode (w : Word) : (s.setI w).mode = s.mode := rfl
@[simp] theorem setI_fault (w : Word) : (s.setI w).fault = s.fault := rfl
@[simp] theorem setI_mem (w : Word) : (s.setI w).mem = s.mem := rfl
@[simp] theorem setI_env (w : Word) : (s.setI w).env = s.env := rfl
@[simp] theorem setI_reg (w : Word) (x' : RegIdx) : (s.setI w).reg x' = s.reg x' := rfl
@[simp] theorem setI_cell (w : Word) (a' : Nat) : (s.setI w).cell a' = s.cell a' := rfl

/-! setDt -/

@[simp] theorem setDt_v (b : Byte) : (s.setDt b).v = s.v := rfl
@[simp] theorem setDt_i (b : Byte) : (s.setDt b).i = s.i := rfl
@[simp] theorem setDt_pc (b : Byte) : (s.setDt b).pc = s.pc := rfl
@[simp] theorem setDt_sp (b : Byte) : (s.setDt b).sp = s.sp := rfl
@[simp] theorem setDt_stack (b : Byte) : (s.setDt b).stack = s.stack := rfl
@[simp] theorem setDt_dt (b : Byte) : (s.setDt b).dt = b := rfl
@[simp] theorem setDt_st (b : Byte) : (s.setDt b).st = s.st := rfl
@[simp] theorem setDt_fb (b : Byte) : (s.setDt b).fb = s.fb := rfl
@[simp] theorem setDt_redraw (b : Byte) : (s.setDt b).redraw = s.redraw := rfl
@[simp] theorem setDt_keys (b : Byte) : (s.setDt b).keys = s.keys := rfl
@[simp] theorem setDt_mode (b : Byte) : (s.setDt b).mode = s.mode := rfl
@[simp] theorem setDt_fault (b : Byte) : (s.setDt b).fault = s.fault := rfl
@[simp] theorem setDt_mem (b : Byte) : (s.setDt b).mem = s.mem := rfl
@[simp] theorem setDt_env (b : Byte) : (s.setDt b).env = s.env := rfl
@[simp] theorem setDt_reg (b : Byte) (x' : RegIdx) : (s.setDt b).reg x' = s.reg x' := rfl
@[simp] theorem setDt_cell (b : Byte) (a' : Nat) : (s.setDt b).cell a' = s.cell a' := rfl

/-! setSt -/

@[simp] theorem setSt_v (b : Byte) : (s.setSt b).v = s.v := rfl
@[simp] theorem setSt_i (b : Byte) : (s.setSt b).i = s.i := rfl
@[simp] theorem setSt_pc (b : Byte) : (s.setSt b).pc = s.pc := rfl
@[simp] theorem setSt_sp (b : Byte) : (s.setSt b).sp = s.sp := rfl
@[simp] theorem setSt_stack (b : Byte) : (s.setSt b).stack = s.stack := rfl
@[simp] theorem setSt_dt (b : Byte) : (s.setSt b).dt = s.dt := rfl
@[simp] theorem setSt_st (b : Byte) : (s.setSt b).st = b := rfl
@[simp] theorem setSt_fb (b : Byte) : (s.setSt b).fb = s.fb := rfl
@[simp] theorem setSt_redraw (b : Byte) : (s.setSt b).redraw = s.redraw := rfl
@[simp] theorem setSt_keys (b : Byte) : (s.setSt b).keys = s.keys := rfl
@[simp] theorem setSt_mode (b : Byte) : (s.setSt b).mode = s.mode := rfl
@[simp] theorem setSt_fault (b : Byte) : (s.setSt b).fault = s.fault := rfl
@[simp] theorem setSt_mem (b : Byte) : (s.setSt b).mem = s.mem := rfl
@[simp] theorem setSt_env (b : Byte) : (s.setSt b).env = s.env := rfl
@[simp] theorem setSt_reg (b : Byte) (x' : RegIdx) : (s.setSt b).reg x' = s.reg x' := rfl
@[simp] theorem setSt_cell (b : Byte) (a' : Nat) : (s.setSt b).cell a' = s.cell a' := rfl

/-! setScreen -/

@[simp] theorem setScreen_v (f : Framebuffer) : (s.setScreen f).v = s.v := rfl
@[simp] theorem setScreen_i (f : Framebuffer) : (s.setScreen f).i = s.i := rfl
@[simp] theorem setScreen_pc (f : Framebuffer) : (s.setScreen f).pc = s.pc := rfl
@[simp] theorem setScreen_sp (f : Framebuffer) : (s.setScreen f).sp = s.sp := rfl
@[simp] theorem setScreen_stack (f : Framebuffer) : (s.setScreen f).stack = s.stack := rfl
@[simp] theorem setScreen_dt (f : Framebuffer) : (s.setScreen f).dt = s.dt := rfl
@[simp] theorem setScreen_st (f : Framebuffer) : (s.setScreen f).st = s.st := rfl
@[simp] theorem setScreen_fb (f : Framebuffer) : (s.setScreen f).fb = f := rfl
@[simp] theorem setScreen_redraw (f : Framebuffer) : (s.setScreen f).redraw = true := rfl
@[simp] theorem setScreen_keys (f : Framebuffer) : (s.setScreen f).keys = s.keys := rfl
@[simp] theorem setScreen_mode (f : Framebuffer) : (s.setScreen f).mode = s.mode := rfl
@[simp] theorem setScreen_fault (f : Framebuffer) : (s.setScreen f).fault = s.fault := rfl
@[simp] theorem setScreen_mem (f : Framebuffer) : (s.setScreen f).mem = s.mem := rfl
@[simp] theorem setScreen_env (f : Framebuffer) : (s.setScreen f).env = s.env := rfl
@[simp] theorem setScreen_reg (f : Framebuffer) (x' : RegIdx) : (s.setScreen f).reg x' = s.reg x' := rfl
@[simp] theorem setScreen_cell (f : Framebuffer) (a' : Nat) : (s.setScreen f).cell a' = s.cell a' := rfl

/-! setMode -/

@[simp] theorem setMode_v (m : Mode) : (s.setMode m).v = s.v := rfl
@[simp] theorem setMode_i (m : Mode) : (s.setMode m).i = s.i := rfl
@[simp] theorem setMode_pc (m : Mode) : (s.setMode m).pc = s.pc := rfl
@[simp] theorem setMode_sp (m : Mode) : (s.setMode m).sp = s.sp := rfl
@[simp] theorem setMode_stack (m : Mode) : (s.setMode m).stack = s.stack := rfl
@[simp] theorem setMode_dt (m : Mode) : (s.setMode m).dt = s.dt := rfl
@[simp] theorem setMode_st (m : Mode) : (s.setMode m).st = s.st := rfl
@[simp] theorem setMode_fb (m : Mode) : (s.setMode m).fb = s.fb := rfl
@[simp] theorem setMode_redraw (m : Mode) : (s.setMode m).redraw = s.redraw := rfl
@[simp] theorem setMode_keys (m : Mode) : (s.setMode m).keys = s.keys := rfl
@[simp] theorem setMode_mode (m : Mode) : (s.setMode m).mode = m := rfl
@[simp] theorem setMode_fault (m : Mode) : (s.setMode m).fault = s.fault := rfl
@[simp] theorem setMode_mem (m : Mode) : (s.setMode m).mem = s.mem := rfl
@[simp] theorem setMode_env (m : Mode) : (s.setMode m).env = s.env := rfl
@[simp] theorem setMode_reg (m : Mode) (x' : RegIdx) : (s.setMode m).reg x' = s.reg x' := rfl
@[simp] theorem setMode_cell (m : Mode) (a' : Nat) : (s.setMode m).cell a' = s.cell a' := rfl

/-! setPc -/

@[simp] theorem setPc_v (w : Word) : (s.setPc w).v = s.v := rfl
@[simp] theorem setPc_i (w : Word) : (s.setPc w).i = s.i := rfl
@[simp] theorem setPc_pc (w : Word) : (s.setPc w).pc = w := rfl
@[simp] theorem setPc_sp (w : Word) : (s.setPc w).sp = s.sp := rfl
@[simp] theorem setPc_stack (w : Word) : (s.setPc w).stack = s.stack := rfl
@[simp] theorem setPc_dt (w : Word) : (s.setPc w).dt = s.dt := rfl
@[simp] theorem setPc_st (w : Word) : (s.setPc w).st = s.st := rfl
@[simp] theorem setPc_fb (w : Word) : (s.setPc w).fb = s.fb := rfl
@[simp] theorem setPc_redraw (w : Word) : (s.setPc w).redraw = s.redraw := rfl
@[simp] theorem setPc_keys (w : Word) : (s.setPc w).keys = s.keys := rfl
@[simp] theorem setPc_mode (w : Word) : (s.setPc w).mode = s.mode := rfl
@[simp] theorem setPc_fault (w : Word) : (s.setPc w).fault = s.fault := rfl
@[simp] theorem setPc_mem (w : Word) : (s.setPc w).mem = s.mem := rfl
@[simp] theorem setPc_env (w : Word) : (s.setPc w).env = s.env := rfl
@[simp] theorem setPc_reg (w : Word) (x' : RegIdx) : (s.setPc w).reg x' = s.reg x' := rfl
@[simp] theorem setPc_cell (w : Word) (a' : Nat) : (s.setPc w).cell a' = s.cell a' := rfl

/-! advance -/

@[simp] theorem advance_v : s.advance.v = s.v := rfl
@[simp] theorem advance_i : s.advance.i = s.i := rfl
@[simp] theorem advance_pc : s.advance.pc = s.pc + 2 := rfl
@[simp] theorem advance_sp : s.advance.sp = s.sp := rfl
@[simp] theorem advance_stack : s.advance.stack = s.stack := rfl
@[simp] theorem advance_dt : s.advance.dt = s.dt := rfl
@[simp] theorem advance_st : s.advance.st = s.st := rfl
@[simp] theorem advance_fb : s.advance.fb = s.fb := rfl
@[simp] theorem advance_redraw : s.advance.redraw = s.redraw := rfl
@[simp] theorem advance_keys : s.advance.keys = s.keys := rfl
@[simp] theorem advance_mode : s.advance.mode = s.mode := rfl
@[simp] theorem advance_fault : s.advance.fault = s.fault := rfl
@[simp] theorem advance_mem : s.advance.mem = s.mem := rfl
@[simp] theorem advance_env : s.advance.env = s.env := rfl
@[simp] theorem advance_reg (x' : RegIdx) : s.advance.reg x' = s.reg x' := rfl
@[simp] theorem advance_cell (a' : Nat) : s.advance.cell a' = s.cell a' := rfl

/-! skip -/

@[simp] theorem skip_v : s.skip.v = s.v := rfl
@[simp] theorem skip_i : s.skip.i = s.i := rfl
@[simp] theorem skip_pc : s.skip.pc = s.pc + 2 := rfl
@[simp] theorem skip_sp : s.skip.sp = s.sp := rfl
@[simp] theorem skip_stack : s.skip.stack = s.stack := rfl
@[simp] theorem skip_dt : s.skip.dt = s.dt := rfl
@[simp] theorem skip_st : s.skip.st = s.st := rfl
@[simp] theorem skip_fb : s.skip.fb = s.fb := rfl
@[simp] theorem skip_redraw : s.skip.redraw = s.redraw := rfl
@[simp] theorem skip_keys : s.skip.keys = s.keys := rfl
@[simp] theorem skip_mode : s.skip.mode = s.mode := rfl
@[simp] theorem skip_fault : s.skip.fault = s.fault := rfl
@[simp] theorem skip_mem : s.skip.mem = s.mem := rfl
@[simp] theorem skip_env : s.skip.env = s.env := rfl
@[simp] theorem skip_reg (x' : RegIdx) : s.skip.reg x' = s.reg x' := rfl
@[simp] theorem skip_cell (a' : Nat) : s.skip.cell a' = s.cell a' := rfl

/-! refetch -/

@[simp] theorem refetch_v : s.refetch.v = s.v := rfl
@[simp] theorem refetch_i : s.refetch.i = s.i := rfl
@[simp] theorem refetch_pc : s.refetch.pc = s.pc - 2 := rfl
@[simp] theorem refetch_sp : s.refetch.sp = s.sp := rfl
@[simp] theorem refetch_stack : s.refetch.stack = s.stack := rfl
@[simp] theorem refetch_dt : s.refetch.dt = s.dt := rfl
@[simp] theorem refetch_st : s.refetch.st = s.st := rfl
@[simp] theorem refetch_fb : s.refetch.fb = s.fb := rfl
@[simp] theorem refetch_redraw : s.refetch.redraw = s.redraw := rfl
@[simp] theorem refetch_keys : s.refetch.keys = s.keys := rfl
@[simp] theorem refetch_mode : s.refetch.mode = s.mode := rfl
@[simp] theorem refetch_fault : s.refetch.fault = s.fault := rfl
@[simp] theorem refetch_mem : s.refetch.mem = s.mem := rfl
@[simp] theorem refetch_env : s.refetch.env = s.env := rfl
@[simp] theorem refetch_reg (x' : RegIdx) : s.refetch.reg x' = s.reg x' := rfl
@[simp] theorem refetch_cell (a' : Nat) : s.refetch.cell a' = s.cell a' := rfl

/-! memWriteBytes -/

@[simp] theorem memWriteBytes_v (a : Nat) (bs : List Byte) : (s.memWriteBytes a bs).v = s.v := rfl
@[simp] theorem memWriteBytes_i (a : Nat) (bs : List Byte) : (s.memWriteBytes a bs).i = s.i := rfl
@[simp] theorem memWriteBytes_pc (a : Nat) (bs : List Byte) : (s.memWriteBytes a bs).pc = s.pc := rfl
@[simp] theorem memWriteBytes_sp (a : Nat) (bs : List Byte) : (s.memWriteBytes a bs).sp = s.sp := rfl
@[simp] theorem memWriteBytes_stack (a : Nat) (bs : List Byte) : (s.memWriteBytes a bs).stack = s.stack := rfl
@[simp] theorem memWriteBytes_dt (a : Nat) (bs : List Byte) : (s.memWriteBytes a bs).dt = s.dt := rfl
@[simp] theorem memWriteBytes_st (a : Nat) (bs : List Byte) : (s.memWriteBytes a bs).st = s.st := rfl
@[simp] theorem memWriteBytes_fb (a : Nat) (bs : List Byte) : (s.memWriteBytes a bs).fb = s.fb := rfl
@[simp] theorem memWriteBytes_redraw (a : Nat) (bs : List Byte) : (s.memWriteBytes a bs).redraw = s.redraw := rfl
@[simp] theorem memWriteBytes_keys (a : Nat) (bs : List Byte) : (s.memWriteBytes a bs).keys = s.keys := rfl
@[simp] theorem memWriteBytes_mode (a : Nat) (bs : List Byte) : (s.memWriteBytes a bs).mode = s.mode := rfl
@[simp] theorem memWriteBytes_fault (a : Nat) (bs : List Byte) : (s.memWriteBytes a bs).fault = s.fault := rfl
@[simp] theorem memWriteBytes_mem (a : Nat) (bs : List Byte) : (s.memWriteBytes a bs).mem = Memory.writeBytes s.env.params.font s.mem a bs := rfl
@[simp] theorem memWriteBytes_env (a : Nat) (bs : List Byte) : (s.memWriteBytes a bs).env = s.env := rfl
@[simp] theorem memWriteBytes_reg (a : Nat) (bs : List Byte) (x' : RegIdx) : (s.memWriteBytes a bs).reg x' = s.reg x' := rfl

/-! setStack -/

@[simp] theorem setStack_v (stk : Vector Word 16) (d : Fin 17) : (s.setStack stk d).v = s.v := rfl
@[simp] theorem setStack_i (stk : Vector Word 16) (d : Fin 17) : (s.setStack stk d).i = s.i := rfl
@[simp] theorem setStack_pc (stk : Vector Word 16) (d : Fin 17) : (s.setStack stk d).pc = s.pc := rfl
@[simp] theorem setStack_sp (stk : Vector Word 16) (d : Fin 17) : (s.setStack stk d).sp = d := rfl
@[simp] theorem setStack_stack (stk : Vector Word 16) (d : Fin 17) : (s.setStack stk d).stack = stk := rfl
@[simp] theorem setStack_dt (stk : Vector Word 16) (d : Fin 17) : (s.setStack stk d).dt = s.dt := rfl
@[simp] theorem setStack_st (stk : Vector Word 16) (d : Fin 17) : (s.setStack stk d).st = s.st := rfl
@[simp] theorem setStack_fb (stk : Vector Word 16) (d : Fin 17) : (s.setStack stk d).fb = s.fb := rfl
@[simp] theorem setStack_redraw (stk : Vector Word 16) (d : Fin 17) : (s.setStack stk d).redraw = s.redraw := rfl
@[simp] theorem setStack_keys (stk : Vector Word 16) (d : Fin 17) : (s.setStack stk d).keys = s.keys := rfl
@[simp] theorem setStack_mode (stk : Vector Word 16) (d : Fin 17) : (s.setStack stk d).mode = s.mode := rfl
@[simp] theorem setStack_fault (stk : Vector Word 16) (d : Fin 17) : (s.setStack stk d).fault = s.fault := rfl
@[simp] theorem setStack_mem (stk : Vector Word 16) (d : Fin 17) : (s.setStack stk d).mem = s.mem := rfl
@[simp] theorem setStack_env (stk : Vector Word 16) (d : Fin 17) : (s.setStack stk d).env = s.env := rfl
@[simp] theorem setStack_reg (stk : Vector Word 16) (d : Fin 17) (x' : RegIdx) : (s.setStack stk d).reg x' = s.reg x' := rfl
@[simp] theorem setStack_cell (stk : Vector Word 16) (d : Fin 17) (a' : Nat) : (s.setStack stk d).cell a' = s.cell a' := rfl

/-! latchRnd -/

@[simp] theorem latchRnd_v (r : Byte) : (s.latchRnd r).v = s.v := rfl
@[simp] theorem latchRnd_i (r : Byte) : (s.latchRnd r).i = s.i := rfl
@[simp] theorem latchRnd_pc (r : Byte) : (s.latchRnd r).pc = s.pc := rfl
@[simp] theorem latchRnd_sp (r : Byte) : (s.latchRnd r).sp = s.sp := rfl
@[simp] theorem latchRnd_stack (r : Byte) : (s.latchRnd r).stack = s.stack := rfl
@[simp] theorem latchRnd_dt (r : Byte) : (s.latchRnd r).dt = s.dt := rfl
@[simp] theorem latchRnd_st (r : Byte) : (s.latchRnd r).st = s.st := rfl
@[simp] theorem latchRnd_fb (r : Byte) : (s.latchRnd r).fb = s.fb := rfl
@[simp] theorem latchRnd_redraw (r : Byte) : (s.latchRnd r).redraw = s.redraw := rfl
@[simp] theorem latchRnd_keys (r : Byte) : (s.latchRnd r).keys = s.keys := rfl
@[simp] theorem latchRnd_mode (r : Byte) : (s.latchRnd r).mode = s.mode := rfl
@[simp] theorem latchRnd_fault (r : Byte) : (s.latchRnd r).fault = s.fault := rfl
@[simp] theorem latchRnd_mem (r : Byte) : (s.latchRnd r).mem = s.mem := rfl
@[simp] theorem latchRnd_env (r : Byte) : (s.latchRnd r).env = { s.env with rnd := r } := rfl
@[simp] theorem latchRnd_reg (r : Byte) (x' : RegIdx) : (s.latchRnd r).reg x' = s.reg x' := rfl
@[simp] theorem latchRnd_cell (r : Byte) (a' : Nat) : (s.latchRnd r).cell a' = s.cell a' := rfl

/-! raiseFault -/

@[simp] theorem raiseFault_v (k : FaultKind) (w : Word) : (raiseFault k w s).v = s.v := rfl
@[simp] theorem raiseFault_i (k : FaultKind) (w : Word) : (raiseFault k w s).i = s.i := rfl
@[simp] theorem raiseFault_pc (k : FaultKind) (w : Word) : (raiseFault k w s).pc = s.pc := rfl
@[simp] theorem raiseFault_sp (k : FaultKind) (w : Word) : (raiseFault k w s).sp = s.sp := rfl
@[simp] theorem raiseFault_stack (k : FaultKind) (w : Word) : (raiseFault k w s).stack = s.stack := rfl
@[simp] theorem raiseFault_dt (k : FaultKind) (w : Word) : (raiseFault k w s).dt = s.dt := rfl
@[simp] theorem raiseFault_st (k : FaultKind) (w : Word) : (raiseFault k w s).st = s.st := rfl
@[simp] theorem raiseFault_fb (k : FaultKind) (w : Word) : (raiseFault k w s).fb = s.fb := rfl
@[simp] theorem raiseFault_redraw (k : FaultKind) (w : Word) : (raiseFault k w s).redraw = s.redraw := rfl
@[simp] theorem raiseFault_keys (k : FaultKind) (w : Word) : (raiseFault k w s).keys = s.keys := rfl
@[simp] theorem raiseFault_mode (k : FaultKind) (w : Word) : (raiseFault k w s).mode = Mode.running := rfl
@[simp] theorem raiseFault_fault (k : FaultKind) (w : Word) : (raiseFault k w s).fault = { kind := k, pc := s.pc - 2, opcode := w } := rfl
@[simp] theorem raiseFault_mem (k : FaultKind) (w : Word) : (raiseFault k w s).mem = s.mem := rfl
@[simp] theorem raiseFault_env (k : FaultKind) (w : Word) : (raiseFault k w s).env = s.env := rfl
@[simp] theorem raiseFault_reg (k : FaultKind) (w : Word) (x' : RegIdx) : (raiseFault k w s).reg x' = s.reg x' := rfl
@[simp] theorem raiseFault_cell (k : FaultKind) (w : Word) (a' : Nat) : (raiseFault k w s).cell a' = s.cell a' := rfl

/-! raiseFetchFault -/

@[simp] theorem raiseFetchFault_v (v : Nat) : (raiseFetchFault v s).v = s.v := rfl
@[simp] theorem raiseFetchFault_i (v : Nat) : (raiseFetchFault v s).i = s.i := rfl
@[simp] theorem raiseFetchFault_pc (v : Nat) : (raiseFetchFault v s).pc = s.pc := rfl
@[simp] theorem raiseFetchFault_sp (v : Nat) : (raiseFetchFault v s).sp = s.sp := rfl
@[simp] theorem raiseFetchFault_stack (v : Nat) : (raiseFetchFault v s).stack = s.stack := rfl
@[simp] theorem raiseFetchFault_dt (v : Nat) : (raiseFetchFault v s).dt = s.dt := rfl
@[simp] theorem raiseFetchFault_st (v : Nat) : (raiseFetchFault v s).st = s.st := rfl
@[simp] theorem raiseFetchFault_fb (v : Nat) : (raiseFetchFault v s).fb = s.fb := rfl
@[simp] theorem raiseFetchFault_redraw (v : Nat) : (raiseFetchFault v s).redraw = s.redraw := rfl
@[simp] theorem raiseFetchFault_keys (v : Nat) : (raiseFetchFault v s).keys = s.keys := rfl
@[simp] theorem raiseFetchFault_mem (v : Nat) : (raiseFetchFault v s).mem = s.mem := rfl
@[simp] theorem raiseFetchFault_mode (v : Nat) : (raiseFetchFault v s).mode = Mode.running := rfl
@[simp] theorem raiseFetchFault_fault (v : Nat) :
    (raiseFetchFault v s).fault = { kind := .programError v, pc := s.pc, opcode := Config.freeWord s.env.draws } := rfl
@[simp] theorem raiseFetchFault_env (v : Nat) :
    (raiseFetchFault v s).env = { s.env with draws := s.env.draws + 1 } := rfl
@[simp] theorem raiseFetchFault_reg (v : Nat) (x' : RegIdx) : (raiseFetchFault v s).reg x' = s.reg x' := rfl
@[simp] theorem raiseFetchFault_cell (v : Nat) (a' : Nat) : (raiseFetchFault v s).cell a' = s.cell a' := rfl

/-! setKeyEffect -/

@[simp] theorem setKeyEffect_v (k : KeyIdx) (p : Bool) : (setKeyEffect k p s).v = s.v := rfl
@[simp] theorem setKeyEffect_i (k : KeyIdx) (p : Bool) : (setKeyEffect k p s).i = s.i := rfl
@[simp] theorem setKeyEffect_pc (k : KeyIdx) (p : Bool) : (setKeyEffect k p s).pc = s.pc := rfl
@[simp] theorem setKeyEffect_sp (k : KeyIdx) (p : Bool) : (setKeyEffect k p s).sp = s.sp := rfl
@[simp] theorem setKeyEffect_stack (k : KeyIdx) (p : Bool) : (setKeyEffect k p s).stack = s.stack := rfl
@[simp] theorem setKeyEffect_dt (k : KeyIdx) (p : Bool) : (setKeyEffect k p s).dt = s.dt := rfl
@[simp] theorem setKeyEffect_st (k : KeyIdx) (p : Bool) : (setKeyEffect k p s).st = s.st := rfl
@[simp] theorem setKeyEffect_fb (k : KeyIdx) (p : Bool) : (setKeyEffect k p s).fb = s.fb := rfl
@[simp] theorem setKeyEffect_redraw (k : KeyIdx) (p : Bool) : (setKeyEffect k p s).redraw = s.redraw := rfl
@[simp] theorem setKeyEffect_keys (k : KeyIdx) (p : Bool) : (setKeyEffect k p s).keys = s.keys.set k p k.isLt := rfl
@[simp] theorem setKeyEffect_mode (k : KeyIdx) (p : Bool) : (setKeyEffect k p s).mode = s.mode := rfl
@[simp] theorem setKeyEffect_fault (k : KeyIdx) (p : Bool) : (setKeyEffect k p s).fault = s.fault := rfl
@[simp] theorem setKeyEffect_mem (k : KeyIdx) (p : Bool) : (setKeyEffect k p s).mem = s.mem := rfl
@[simp] theorem setKeyEffect_env (k : KeyIdx) (p : Bool) : (setKeyEffect k p s).env = s.env := rfl
@[simp] theorem setKeyEffect_reg (k : KeyIdx) (p : Bool) (x' : RegIdx) : (setKeyEffect k p s).reg x' = s.reg x' := rfl
@[simp] theorem setKeyEffect_cell (k : KeyIdx) (p : Bool) (a' : Nat) : (setKeyEffect k p s).cell a' = s.cell a' := rfl

/-! tickEffect -/

@[simp] theorem tickEffect_v (n : Nat) : (tickEffect n s).v = s.v := rfl
@[simp] theorem tickEffect_i (n : Nat) : (tickEffect n s).i = s.i := rfl
@[simp] theorem tickEffect_pc (n : Nat) : (tickEffect n s).pc = s.pc := rfl
@[simp] theorem tickEffect_sp (n : Nat) : (tickEffect n s).sp = s.sp := rfl
@[simp] theorem tickEffect_stack (n : Nat) : (tickEffect n s).stack = s.stack := rfl
@[simp] theorem tickEffect_dt (n : Nat) : (tickEffect n s).dt = countDown n s.dt := rfl
@[simp] theorem tickEffect_st (n : Nat) : (tickEffect n s).st = countDown n s.st := rfl
@[simp] theorem tickEffect_fb (n : Nat) : (tickEffect n s).fb = s.fb := rfl
@[simp] theorem tickEffect_redraw (n : Nat) : (tickEffect n s).redraw = s.redraw := rfl
@[simp] theorem tickEffect_keys (n : Nat) : (tickEffect n s).keys = s.keys := rfl
@[simp] theorem tickEffect_mode (n : Nat) : (tickEffect n s).mode = s.mode := rfl
@[simp] theorem tickEffect_fault (n : Nat) : (tickEffect n s).fault = s.fault := rfl
@[simp] theorem tickEffect_mem (n : Nat) : (tickEffect n s).mem = s.mem := rfl
@[simp] theorem tickEffect_env (n : Nat) : (tickEffect n s).env = s.env := rfl
@[simp] theorem tickEffect_reg (n : Nat) (x' : RegIdx) : (tickEffect n s).reg x' = s.reg x' := rfl
@[simp] theorem tickEffect_cell (n : Nat) (a' : Nat) : (tickEffect n s).cell a' = s.cell a' := rfl

/-! clearRedrawEffect -/

@[simp] theorem clearRedrawEffect_v : (clearRedrawEffect s).v = s.v := rfl
@[simp] theorem clearRedrawEffect_i : (clearRedrawEffect s).i = s.i := rfl
@[simp] theorem clearRedrawEffect_pc : (clearRedrawEffect s).pc = s.pc := rfl
@[simp] theorem clearRedrawEffect_sp : (clearRedrawEffect s).sp = s.sp := rfl
@[simp] theorem clearRedrawEffect_stack : (clearRedrawEffect s).stack = s.stack := rfl
@[simp] theorem clearRedrawEffect_dt : (clearRedrawEffect s).dt = s.dt := rfl
@[simp] theorem clearRedrawEffect_st : (clearRedrawEffect s).st = s.st := rfl
@[simp] theorem clearRedrawEffect_fb : (clearRedrawEffect s).fb = s.fb := rfl
@[simp] theorem clearRedrawEffect_redraw : (clearRedrawEffect s).redraw = false := rfl
@[simp] theorem clearRedrawEffect_keys : (clearRedrawEffect s).keys = s.keys := rfl
@[simp] theorem clearRedrawEffect_mode : (clearRedrawEffect s).mode = s.mode := rfl
@[simp] theorem clearRedrawEffect_fault : (clearRedrawEffect s).fault = s.fault := rfl
@[simp] theorem clearRedrawEffect_mem : (clearRedrawEffect s).mem = s.mem := rfl
@[simp] theorem clearRedrawEffect_env : (clearRedrawEffect s).env = s.env := rfl
@[simp] theorem clearRedrawEffect_reg (x' : RegIdx) : (clearRedrawEffect s).reg x' = s.reg x' := rfl
@[simp] theorem clearRedrawEffect_cell (a' : Nat) : (clearRedrawEffect s).cell a' = s.cell a' := rfl

/-! resetEffect -/

@[simp] theorem resetEffect_v : (resetEffect s).v = State.reset.v := rfl
@[simp] theorem resetEffect_i : (resetEffect s).i = State.reset.i := rfl
@[simp] theorem resetEffect_pc : (resetEffect s).pc = State.reset.pc := rfl
@[simp] theorem resetEffect_sp : (resetEffect s).sp = State.reset.sp := rfl
@[simp] theorem resetEffect_stack : (resetEffect s).stack = State.reset.stack := rfl
@[simp] theorem resetEffect_dt : (resetEffect s).dt = State.reset.dt := rfl
@[simp] theorem resetEffect_st : (resetEffect s).st = State.reset.st := rfl
@[simp] theorem resetEffect_fb : (resetEffect s).fb = State.reset.fb := rfl
@[simp] theorem resetEffect_redraw : (resetEffect s).redraw = State.reset.redraw := rfl
@[simp] theorem resetEffect_keys : (resetEffect s).keys = State.reset.keys := rfl
@[simp] theorem resetEffect_mode : (resetEffect s).mode = State.reset.mode := rfl
@[simp] theorem resetEffect_fault : (resetEffect s).fault = State.reset.fault := rfl
@[simp] theorem resetEffect_mem : (resetEffect s).mem = State.reset.mem := rfl
@[simp] theorem resetEffect_env : (resetEffect s).env = s.env := rfl

end Sys2Proof.Machine
end

