-- ==== Sys2Proof/Laws/Ops.lean ====
section
/-! SUPPORT. One spec lemma for each shared operation: what it leaves where, and everything it can do. -/

namespace Sys2Proof.Machine

variable (s : State)

/-! Registers. -/

/-- V[x] after V[y] <- b. -/
@[simp] theorem setReg_reg (x y : RegIdx) (b : Byte) : (s.setReg y b).reg x = if x = y then b else s.reg x := by
  simp only [State.reg, State.setReg, Fin.getElem_fin, Vector.getElem_set, Fin.ext_iff, eq_comm]

/-- The registers depend on v alone. -/
theorem reg_congr {s t : State} (h : t.v = s.v) (x : RegIdx) : t.reg x = s.reg x := by simp [State.reg, h]

/-- V[x] after VF and then a result are written (R131): the result at the destination, the flag at VF elsewhere. -/
theorem setFlagThenReg_reg (f : Option Byte) (x r : RegIdx) (b : Byte) :
    (s.setFlagThenReg f x b).reg r =
      if r = x then b else if r = 15 then f.getD (s.reg 15) else s.reg r := by
  cases f with
  | none =>
    simp only [State.setFlagThenReg, setReg_reg, Option.getD_none]
    split <;> [rfl; split <;> simp_all]
  | some f => simp [State.setFlagThenReg]

/-- Only v differs. -/
theorem setFlagThenReg_eq (f : Option Byte) (x : RegIdx) (b : Byte) :
    s.setFlagThenReg f x b = { s with v := (s.setFlagThenReg f x b).v } := by
  cases f <;> rfl

@[simp] theorem setFlagThenReg_cell (f : Option Byte) (x : RegIdx) (b : Byte) (a : Nat) :
    (s.setFlagThenReg f x b).cell a = s.cell a := by
  cases f <;> rfl

theorem loadRegFile_get (v : Vector Byte 16) (r : Nat) (bs : List Byte) (x : Nat) (hx : x < 16) :
    (loadRegFile v r bs)[x] = if h : r ≤ x ∧ x - r < bs.length then bs[x - r]'h.2 else v[x] := by
  induction bs generalizing v r with
  | nil => simp [loadRegFile]
  | cons b bs ih =>
    rw [loadRegFile, ih]
    by_cases h1 : r + 1 ≤ x ∧ x - (r + 1) < bs.length
    · rw [dif_pos h1, dif_pos (by simp; omega)]
      have : x - r = (x - (r + 1)) + 1 := by omega
      simp [this]
    · rw [dif_neg h1]
      by_cases h2 : r = x
      · subst h2; simp
      · rw [dif_neg (by simp; omega), Vector.getElem_setIfInBounds_ne hx h2]

/-- V[x] after V[0], V[1], … are loaded with the bytes. -/
theorem setRegs_reg (bs : List Byte) (x : RegIdx) :
    (s.setRegs bs).reg x = if h : x.val < bs.length then bs[x.val] else s.reg x := by
  simp [State.reg, State.setRegs, loadRegFile_get]

@[simp] theorem regsUpTo_length (x : RegIdx) : (s.regsUpTo x).length = x.val + 1 := by
  have := x.isLt
  simp [State.regsUpTo]

/-- The bytes FX55 stores are the registers in order. -/
theorem regsUpTo_get (x : RegIdx) (k : Nat) (hk : k < (s.regsUpTo x).length) (hk' : k < 16) :
    (s.regsUpTo x)[k] = s.reg ⟨k, hk'⟩ := by
  simp [State.regsUpTo, State.reg]

/-! Memory. -/

/-- A cell depends on the memory and the font alone. -/
theorem cell_congr {s t : State} (hm : t.mem = s.mem) (he : t.env.params = s.env.params) (a : Nat) :
    t.cell a = s.cell a := by simp [State.cell, hm, he]

/-- A store leaves every cell outside it as it was. -/
theorem memWriteBytes_cell_other (hm : Memory.wf s.env.params.font s.mem) (base : Nat) (bs : List Byte) (a : Nat)
    (ha : ∀ k < bs.length, addrOf (base + k) ≠ a) : (s.memWriteBytes base bs).cell a = s.cell a :=
  Memory.read_writeBytes_other _ _ hm base bs a ha

/-- A store leaves each of its bytes in its cell. -/
theorem memWriteBytes_cell_inside (hm : Memory.wf s.env.params.font s.mem) (base : Nat) (bs : List Byte)
    (hl : bs.length ≤ 4096) (k : Nat) (hk : k < bs.length) :
    (s.memWriteBytes base bs).cell (addrOf (base + k)) = bs[k] :=
  Memory.read_writeBytes_inside _ _ hm base bs hl k hk

/-- The guard lets a step run when the address unit faults on none of its accesses. -/
theorem guardAccess_of_none {s : State} {base n : Nat} (h : firstOutOfRange s.env.params.addrOob base n = none)
    (stop : Nat → State) (k : Result) : guardAccess s base n stop k = k := by simp [guardAccess, h]

/-- Everything the guard can answer (R51). -/
theorem guardAccess_cases (s : State) (base n : Nat) (stop : Nat → State) (k : Result) :
    (firstOutOfRange s.env.params.addrOob base n = none ∧ guardAccess s base n stop k = k) ∨
    (s.env.params.addrOob = .fault ∧ 4096 < base + n ∧ 0 < n ∧
      guardAccess s base n stop k = .next (stop (max base 4096))) := by
  unfold guardAccess
  split
  · rename_i v h
    obtain ⟨hp, rfl, hv⟩ := firstOutOfRange_some h
    exact .inr ⟨hp, by omega, by omega, rfl⟩
  · exact .inl ⟨‹_›, rfl⟩

/-- Everything an instruction with accesses from I can answer (R51). -/
theorem guardData_cases (i : Instr) (s : State) (k : Result) :
    guardData i s k = k ∨
    (s.env.params.addrOob = .fault ∧ 4096 < s.i.toNat + dataCells i ∧ 0 < dataCells i ∧
      guardData i s k = .next (raiseFault (.programError (max s.i.toNat 4096)) (encode i) s)) :=
  (guardAccess_cases s s.i.toNat (dataCells i) _ k).imp And.right id

/-- It runs when the address unit faults on none of its accesses. -/
theorem guardData_of_none {i : Instr} {s : State}
    (h : firstOutOfRange s.env.params.addrOob s.i.toNat (dataCells i) = none) (k : Result) : guardData i s k = k :=
  guardAccess_of_none h _ k

/-! The stack controller. -/

/-- Everything a push can do (R160). -/
theorem push_cases (w : Word) :
    (s.push w = none ∧ s.sp = 16) ∨
    ∃ h : s.sp.val < 16, s.push w =
      some (s.setStack (s.stack.set s.sp.val w h) ⟨s.sp.val + 1, by omega⟩) := by
  unfold State.push
  split
  · exact .inr ⟨‹_›, rfl⟩
  · refine .inl ⟨rfl, ?_⟩
    have := s.sp.isLt
    apply Fin.ext
    simp
    omega

/-- Everything a pop can do (R161). -/
theorem pop_cases :
    (s.pop = none ∧ s.sp = 0) ∨
    ∃ h : 0 < s.sp.val, s.pop =
      some (s.stack[s.sp.val - 1], s.setStack s.stack ⟨s.sp.val - 1, by omega⟩) := by
  unfold State.pop
  split
  · exact .inr ⟨‹_›, rfl⟩
  · refine .inl ⟨rfl, ?_⟩
    apply Fin.ext
    simp
    omega

/-! Completion. -/

theorem complete_next {s t : State} (h : complete s = .next t) : t = s.setMode .running := by
  cases h; rfl

theorem await_next {s t : State} (h : await s = .next t) : t = s.setMode .awaitingKey := by
  cases h; rfl

theorem halted_iff : s.halted = true ↔ s.fault.kind ≠ .noFault := by simp [State.halted]

end Sys2Proof.Machine
end

