-- ==== Sys2Proof/Laws/Exec.lean ====
section
/-! SUPPORT. What every instruction can do to FAULT and MODE, said once: it completes, it is a blocked FX0A, or it raises a
stack fault or, under ADDR_OOB = fault, ProgramError. -/

namespace Sys2Proof.Machine

/-- A completed 8XY4 to 8XYE leaves FAULT and MODE as completion says. -/
theorem complete_setFlagThenReg {s t : State} {f : Option Byte} {x : RegIdx} {b : Byte}
    (h : complete (s.setFlagThenReg f x b) = .next t) : t.fault = s.fault ∧ t.mode = .running := by
  rw [complete_next h, setFlagThenReg_eq]
  exact ⟨rfl, rfl⟩

/-- A completed skip, taken or not, leaves everything but pc and MODE. -/
theorem skipIf_next {b : Bool} {s t : State} (h : skipIf b s = .next t) :
    t = (s.setPc (if b then s.pc + 2 else s.pc)).setMode .running := by
  rw [complete_next h]
  cases b <;> rfl

/-- Everything `exec` can do to FAULT and MODE (R117, R240 to R243, R51). -/
theorem exec_next_cases {i : Instr} {s t : State} (h : exec i s = .next t) :
    (t.fault = s.fault ∧ t.mode = .running) ∨
    (∃ x, i = .ldKey x ∧ t = s.refetch.setMode .awaitingKey) ∨
    (s.sp = 16 ∧ ∃ a, i = .call a ∧ t = raiseFault .stackOverflow (encode i) s) ∨
    (s.sp = 0 ∧ i = .ret ∧ t = raiseFault .stackUnderflow (encode i) s) ∨
    (s.env.params.addrOob = .fault ∧ 4096 < s.i.toNat + dataCells i ∧ 0 < dataCells i ∧
      t = raiseFault (.programError (max s.i.toNat 4096)) (encode i) s) := by
  cases i <;> simp only [exec] at h
  case ret =>
    rw [execRet] at h
    rcases pop_cases s with ⟨hp, h0⟩ | ⟨h0, hp⟩ <;> rw [hp] at h <;> cases h
    · exact .inr (.inr (.inr (.inl ⟨h0, rfl, rfl⟩)))
    · exact .inl ⟨rfl, rfl⟩
  case call =>
    rw [execCall] at h
    rcases push_cases s s.pc with ⟨hp, h0⟩ | ⟨h0, hp⟩ <;> rw [hp] at h <;> cases h
    · exact .inr (.inr (.inl ⟨h0, _, rfl, rfl⟩))
    · exact .inl ⟨rfl, rfl⟩
  case ldKey x =>
    rw [execLdKey] at h
    split at h <;> cases h
    · exact .inl ⟨rfl, rfl⟩
    · exact .inr (.inl ⟨x, rfl, rfl⟩)
  case seImm | sneImm | seReg | sneReg | skp | sknp => rw [skipIf_next h]; exact .inl ⟨rfl, rfl⟩
  case addReg | subReg | shr | subnReg | shl => exact .inl (complete_setFlagThenReg h)
  case drw | ldBcd | storeRegs | loadRegs =>
    rcases guardData_cases _ _ _ with hg | ⟨h1, h2, h3, hg⟩
    · rw [complete_next (hg.symm.trans h)]; exact .inl ⟨rfl, rfl⟩
    · exact .inr (.inr (.inr (.inr ⟨h1, h2, h3, Host.Outcome.next.inj (h.symm.trans hg)⟩)))
  all_goals rw [complete_next h]; exact .inl ⟨rfl, rfl⟩

/-- Every instruction answers a next state in every state: a fault is taken, none stops the machine. -/
theorem exec_total (i : Instr) (s : State) : ∃ t, exec i s = .next t := by
  cases i <;> simp only [exec]
  case ret => rcases pop_cases s with ⟨hp, _⟩ | ⟨_, hp⟩ <;> rw [execRet, hp] <;> exact ⟨_, rfl⟩
  case call => rcases push_cases s s.pc with ⟨hp, _⟩ | ⟨_, hp⟩ <;> rw [execCall, hp] <;> exact ⟨_, rfl⟩
  case ldKey => rw [execLdKey]; split <;> exact ⟨_, rfl⟩
  case drw | ldBcd | storeRegs | loadRegs =>
    rcases guardData_cases _ _ _ with hg | ⟨-, -, -, hg⟩ <;> exact ⟨_, hg⟩
  all_goals exact ⟨_, rfl⟩

end Sys2Proof.Machine
end

