-- ==== Sys2Proof/Laws/PerInstr.lean ====
section
/-! SUPPORT. Per-instruction facts about the syntax: the word an instruction encodes to matches the row of the opcode table
that bears its mnemonic (R86). -/

namespace Sys2Proof.Laws.EncodesItsRow

/-- The encoding of `i` matches the opcode table's row of `i`'s mnemonic. -/
def Statement (i : Instr) : Prop := ∃ r ∈ opcodeTable, r.mnemonic = i.mnemonic ∧ r.matchesWord (encode i) = true

/-- A row of the table and the number its mask leaves of the word show the statement. -/
theorem of_row (i : Instr) (r : OpcodeRow) (hr : r ∈ opcodeTable) (hm : r.mnemonic = i.mnemonic)
    (h : encode i &&& r.mask = r.pattern) : Statement i := ⟨r, hr, hm, by simpa [OpcodeRow.matchesWord] using h⟩

theorem formatA_row (op : BitVec 4) (a : Word) (p : Word) (hp : p.toNat = op.toNat * 4096) :
    formatA op a &&& 0xF000#16 = p := by
  have := op.isLt
  rw [and_F000_iff, formatA_toNat, hp]; omega

theorem formatB_row (op : BitVec 4) (x : RegIdx) (nn : Byte) (p : Word) (hp : p.toNat = op.toNat * 4096) :
    formatB op x nn &&& 0xF000#16 = p := by
  have := op.isLt; have := x.isLt; have := nn.isLt
  rw [and_F000_iff, formatB_toNat, hp]; omega

theorem formatK_row (op : BitVec 4) (x : RegIdx) (f : Byte) (p : Word) (hp : p.toNat = op.toNat * 4096 + f.toNat) :
    formatB op x f &&& 0xF0FF#16 = p := by
  have := op.isLt; have := x.isLt; have := f.isLt
  rw [and_F0FF_iff, formatB_toNat, hp]; omega

theorem formatR_row (op : BitVec 4) (x y : RegIdx) (n : BitVec 4) (p : Word) (hp : p.toNat = op.toNat * 4096 + n.toNat) :
    formatR op x y n &&& 0xF00F#16 = p := by
  have := op.isLt; have := x.isLt; have := y.isLt; have := n.isLt
  rw [and_F00F_iff, formatR_toNat, hp]; omega

theorem formatD_row (op : BitVec 4) (x y : RegIdx) (n : BitVec 4) (p : Word) (hp : p.toNat = op.toNat * 4096) :
    formatR op x y n &&& 0xF000#16 = p := by
  have := op.isLt; have := x.isLt; have := y.isLt; have := n.isLt
  rw [and_F000_iff, formatR_toNat, hp]; omega

theorem cls : Statement .cls :=
  of_row _ ⟨"00E0", 0xFFFF, 0x00E0⟩ (by decide) rfl rfl
theorem ret : Statement .ret :=
  of_row _ ⟨"00EE", 0xFFFF, 0x00EE⟩ (by decide) rfl rfl
theorem jp (a : Word) : Statement (.jp a) :=
  of_row _ ⟨"1NNN", 0xF000, 0x1000⟩ (by decide) rfl (formatA_row _ _ _ rfl)
theorem call (a : Word) : Statement (.call a) :=
  of_row _ ⟨"2NNN", 0xF000, 0x2000⟩ (by decide) rfl (formatA_row _ _ _ rfl)
theorem seImm (x : RegIdx) (nn : Byte) : Statement (.seImm x nn) :=
  of_row _ ⟨"3XNN", 0xF000, 0x3000⟩ (by decide) rfl (formatB_row _ _ _ _ rfl)
theorem sneImm (x : RegIdx) (nn : Byte) : Statement (.sneImm x nn) :=
  of_row _ ⟨"4XNN", 0xF000, 0x4000⟩ (by decide) rfl (formatB_row _ _ _ _ rfl)
theorem seReg (x y : RegIdx) : Statement (.seReg x y) :=
  of_row _ ⟨"5XY0", 0xF00F, 0x5000⟩ (by decide) rfl (formatR_row _ _ _ _ _ rfl)
theorem ldImm (x : RegIdx) (nn : Byte) : Statement (.ldImm x nn) :=
  of_row _ ⟨"6XNN", 0xF000, 0x6000⟩ (by decide) rfl (formatB_row _ _ _ _ rfl)
theorem addImm (x : RegIdx) (nn : Byte) : Statement (.addImm x nn) :=
  of_row _ ⟨"7XNN", 0xF000, 0x7000⟩ (by decide) rfl (formatB_row _ _ _ _ rfl)
theorem ldReg (x y : RegIdx) : Statement (.ldReg x y) :=
  of_row _ ⟨"8XY0", 0xF00F, 0x8000⟩ (by decide) rfl (formatR_row _ _ _ _ _ rfl)
theorem orReg (x y : RegIdx) : Statement (.orReg x y) :=
  of_row _ ⟨"8XY1", 0xF00F, 0x8001⟩ (by decide) rfl (formatR_row _ _ _ _ _ rfl)
theorem andReg (x y : RegIdx) : Statement (.andReg x y) :=
  of_row _ ⟨"8XY2", 0xF00F, 0x8002⟩ (by decide) rfl (formatR_row _ _ _ _ _ rfl)
theorem xorReg (x y : RegIdx) : Statement (.xorReg x y) :=
  of_row _ ⟨"8XY3", 0xF00F, 0x8003⟩ (by decide) rfl (formatR_row _ _ _ _ _ rfl)
theorem addReg (x y : RegIdx) : Statement (.addReg x y) :=
  of_row _ ⟨"8XY4", 0xF00F, 0x8004⟩ (by decide) rfl (formatR_row _ _ _ _ _ rfl)
theorem subReg (x y : RegIdx) : Statement (.subReg x y) :=
  of_row _ ⟨"8XY5", 0xF00F, 0x8005⟩ (by decide) rfl (formatR_row _ _ _ _ _ rfl)
theorem shr (x y : RegIdx) : Statement (.shr x y) :=
  of_row _ ⟨"8XY6", 0xF00F, 0x8006⟩ (by decide) rfl (formatR_row _ _ _ _ _ rfl)
theorem subnReg (x y : RegIdx) : Statement (.subnReg x y) :=
  of_row _ ⟨"8XY7", 0xF00F, 0x8007⟩ (by decide) rfl (formatR_row _ _ _ _ _ rfl)
theorem shl (x y : RegIdx) : Statement (.shl x y) :=
  of_row _ ⟨"8XYE", 0xF00F, 0x800E⟩ (by decide) rfl (formatR_row _ _ _ _ _ rfl)
theorem sneReg (x y : RegIdx) : Statement (.sneReg x y) :=
  of_row _ ⟨"9XY0", 0xF00F, 0x9000⟩ (by decide) rfl (formatR_row _ _ _ _ _ rfl)
theorem ldI (a : Word) : Statement (.ldI a) :=
  of_row _ ⟨"ANNN", 0xF000, 0xA000⟩ (by decide) rfl (formatA_row _ _ _ rfl)
theorem jpV0 (a : Word) : Statement (.jpV0 a) :=
  of_row _ ⟨"BNNN", 0xF000, 0xB000⟩ (by decide) rfl (formatA_row _ _ _ rfl)
theorem rnd (x : RegIdx) (nn : Byte) : Statement (.rnd x nn) :=
  of_row _ ⟨"CXNN", 0xF000, 0xC000⟩ (by decide) rfl (formatB_row _ _ _ _ rfl)
theorem drw (x y : RegIdx) (n : Nat) : Statement (.drw x y n) :=
  of_row _ ⟨"DXYN", 0xF000, 0xD000⟩ (by decide) rfl (formatD_row _ _ _ _ _ rfl)
theorem skp (x : RegIdx) : Statement (.skp x) :=
  of_row _ ⟨"EX9E", 0xF0FF, 0xE09E⟩ (by decide) rfl (formatK_row _ _ _ _ rfl)
theorem sknp (x : RegIdx) : Statement (.sknp x) :=
  of_row _ ⟨"EXA1", 0xF0FF, 0xE0A1⟩ (by decide) rfl (formatK_row _ _ _ _ rfl)
theorem ldFromDt (x : RegIdx) : Statement (.ldFromDt x) :=
  of_row _ ⟨"FX07", 0xF0FF, 0xF007⟩ (by decide) rfl (formatK_row _ _ _ _ rfl)
theorem ldKey (x : RegIdx) : Statement (.ldKey x) :=
  of_row _ ⟨"FX0A", 0xF0FF, 0xF00A⟩ (by decide) rfl (formatK_row _ _ _ _ rfl)
theorem ldDt (x : RegIdx) : Statement (.ldDt x) :=
  of_row _ ⟨"FX15", 0xF0FF, 0xF015⟩ (by decide) rfl (formatK_row _ _ _ _ rfl)
theorem ldSt (x : RegIdx) : Statement (.ldSt x) :=
  of_row _ ⟨"FX18", 0xF0FF, 0xF018⟩ (by decide) rfl (formatK_row _ _ _ _ rfl)
theorem addI (x : RegIdx) : Statement (.addI x) :=
  of_row _ ⟨"FX1E", 0xF0FF, 0xF01E⟩ (by decide) rfl (formatK_row _ _ _ _ rfl)
theorem ldFont (x : RegIdx) : Statement (.ldFont x) :=
  of_row _ ⟨"FX29", 0xF0FF, 0xF029⟩ (by decide) rfl (formatK_row _ _ _ _ rfl)
theorem ldBcd (x : RegIdx) : Statement (.ldBcd x) :=
  of_row _ ⟨"FX33", 0xF0FF, 0xF033⟩ (by decide) rfl (formatK_row _ _ _ _ rfl)
theorem storeRegs (x : RegIdx) : Statement (.storeRegs x) :=
  of_row _ ⟨"FX55", 0xF0FF, 0xF055⟩ (by decide) rfl (formatK_row _ _ _ _ rfl)
theorem loadRegs (x : RegIdx) : Statement (.loadRegs x) :=
  of_row _ ⟨"FX65", 0xF0FF, 0xF065⟩ (by decide) rfl (formatK_row _ _ _ _ rfl)

end Sys2Proof.Laws.EncodesItsRow
end

