-- ==== Sys2Proof/Laws/Screen.lean ====
section
/-! SUPPORT. The framebuffer writer: what one flip and one composed bit leave in a pixel. -/

namespace Sys2Proof.Machine

/-- A pixel after a flip: its own pixel is turned, every other is as it was. -/
theorem pixel_flipPixel (fb : Framebuffer) (row row' : Fin 32) (col col' : Fin 64) :
    pixel (flipPixel fb row col) row' col' =
      if row = row' ∧ col = col' then !pixel fb row' col' else pixel fb row' col' := by
  simp only [pixel, flipPixel, Fin.getElem_fin, Vector.getElem_set, Fin.ext_iff]
  by_cases h : row.val = row'.val
  · by_cases h' : col.val = col'.val <;> simp [h, h']
  · simp [h]

@[simp] theorem pixel_blankScreen (row : Fin 32) (col : Fin 64) : pixel blankScreen row col = false := by
  simp [pixel, blankScreen]

/-- Two framebuffers with the same pixels are the same. -/
theorem framebuffer_ext {f g : Framebuffer} (h : ∀ row col, pixel f row col = pixel g row col) : f = g := by
  apply Vector.ext
  intro i hi
  apply Vector.ext
  intro j hj
  exact h ⟨i, hi⟩ ⟨j, hj⟩

/-- What one composed bit does to a pixel (R201, R202). -/
theorem pixel_composeBit (edge : DrawEdge) (px py : Nat) (d : Draw) (row : Fin 32) (col : Fin 64) :
    pixel (composeBit edge px py d).1 row col =
      if pixelAt edge px py = some (row, col) then !pixel d.1 row col else pixel d.1 row col := by
  unfold composeBit
  split
  · rename_i h; simp [h]
  · rename_i r c h
    simp [h, pixel_flipPixel]

/-- What one composed bit does to `hit`: it is set when the pixel it flips was 1 (R201). -/
theorem hit_composeBit (edge : DrawEdge) (px py : Nat) (d : Draw) :
    (composeBit edge px py d).2 = true ↔
      d.2 = true ∨ ∃ row col, pixelAt edge px py = some (row, col) ∧ pixel d.1 row col = true := by
  unfold composeBit
  split
  · rename_i h; simp [h]
  · rename_i r c h
    simp [h]

end Sys2Proof.Machine
end

