-- ==== Sys2Proof/Tests/Slice0.lean ====
section
/-! SUPPORT. Small tests, one step each, with expected results from spec/95_test_vectors.md or a rule's own example, and a
witness for the hypotheses of every statement of Sys2Proof/Certificates/Slice0/Obligations.lean. -/

namespace Sys2Proof.Tests

open Sys2Proof.Machine Sys2Proof.Spec

/-! The checks of WellFormed refuse: one ill-formed term for each. -/

theorem test_wf_jp : (Instr.jp 0x1000).wellFormed = false := by decide
theorem test_wf_call : (Instr.call 0x1000).wellFormed = false := by decide
theorem test_wf_ldI : (Instr.ldI 0xFFFF).wellFormed = false := by decide
theorem test_wf_jpV0 : (Instr.jpV0 0x1000).wellFormed = false := by decide
theorem test_wf_drw : (Instr.drw 0 0 16).wellFormed = false := by decide

/-! Decoding: a word of every constructor, written out from the patterns of 30_encoding.md R86. -/

theorem test_decode_fixed : decode 0x00E0 = .ok .cls ∧ decode 0x00EE = .ok .ret := by decide
theorem test_decode_address :
    decode 0x1234 = .ok (.jp 0x234) ∧ decode 0x2FFF = .ok (.call 0xFFF) ∧ decode 0xA2F0 = .ok (.ldI 0x2F0) ∧
    decode 0xB300 = .ok (.jpV0 0x300) := by decide
theorem test_decode_immediate :
    decode 0x3142 = .ok (.seImm 1 0x42) ∧ decode 0x4142 = .ok (.sneImm 1 0x42) ∧ decode 0x63AB = .ok (.ldImm 3 0xAB) ∧
    decode 0x7EFF = .ok (.addImm 14 0xFF) ∧ decode 0xC30F = .ok (.rnd 3 0x0F) := by decide
theorem test_decode_pair :
    decode 0x5120 = .ok (.seReg 1 2) ∧ decode 0x9120 = .ok (.sneReg 1 2) ∧ decode 0x8120 = .ok (.ldReg 1 2) ∧
    decode 0x8121 = .ok (.orReg 1 2) ∧ decode 0x8122 = .ok (.andReg 1 2) ∧ decode 0x8123 = .ok (.xorReg 1 2) := by decide
theorem test_decode_pair_flags :
    decode 0x8014 = .ok (.addReg 0 1) ∧ decode 0x8235 = .ok (.subReg 2 3) ∧ decode 0x84A6 = .ok (.shr 4 10) ∧
    decode 0x8567 = .ok (.subnReg 5 6) ∧ decode 0x870E = .ok (.shl 7 0) := by decide
theorem test_decode_draw : decode 0xD125 = .ok (.drw 1 2 5) ∧ decode 0xDF20 = .ok (.drw 15 2 0) := by decide
theorem test_decode_keys :
    decode 0xE59E = .ok (.skp 5) ∧ decode 0xE5A1 = .ok (.sknp 5) ∧ decode 0xF30A = .ok (.ldKey 3) := by decide
theorem test_decode_timers :
    decode 0xF107 = .ok (.ldFromDt 1) ∧ decode 0xF215 = .ok (.ldDt 2) ∧ decode 0xF218 = .ok (.ldSt 2) := by decide
theorem test_decode_index :
    decode 0xF21E = .ok (.addI 2) ∧ decode 0xF029 = .ok (.ldFont 0) ∧ decode 0xF333 = .ok (.ldBcd 3) ∧
    decode 0xF255 = .ok (.storeRegs 2) ∧ decode 0xFF65 = .ok (.loadRegs 15) := by decide
/-- L2.5 #1: each of these words is illegal. -/
theorem test_decode_illegal_low :
    decode 0x0000 = .error (.unknownOpcode 0x0000) ∧
    decode 0x0123 = .error (.unknownOpcode 0x0123) ∧
    decode 0x00E1 = .error (.unknownOpcode 0x00E1) ∧
    decode 0x00FF = .error (.unknownOpcode 0x00FF) := by decide
/-- L2.5 #1: each of these words is illegal. -/
theorem test_decode_illegal_nibble :
    decode 0x5121 = .error (.unknownOpcode 0x5121) ∧
    decode 0x8008 = .error (.unknownOpcode 0x8008) ∧
    decode 0x800F = .error (.unknownOpcode 0x800F) ∧
    decode 0x9121 = .error (.unknownOpcode 0x9121) := by decide
/-- L2.5 #1: each of these words is illegal. -/
theorem test_decode_illegal_byte :
    decode 0xE000 = .error (.unknownOpcode 0xE000) ∧
    decode 0xE09F = .error (.unknownOpcode 0xE09F) ∧
    decode 0xF000 = .error (.unknownOpcode 0xF000) ∧
    decode 0xF0FF = .error (.unknownOpcode 0xF0FF) := by decide
theorem test_decode_bytes : decodeBytes [0x63, 0xAB, 0x00] = .ok (.ldImm 3 0xAB, [0x00]) := by decide
theorem test_decode_too_few_bytes : decodeBytes [0x63] = .error .tooFewBytes := by decide
theorem test_decode_table_word : decodeTableWord 16 0x63AB = some (.ldImm 3 0xAB) := by decide

/-! One step on a small state. -/

/-- The reset state with the word at 0x0200. -/
def word (w : Nat) : State := State.reset.withFetchWord 16 w

/-- The registers set in turn. -/
def withRegs (s : State) (l : List (RegIdx × Byte)) : State := l.foldl (fun t p => t.setReg p.1 p.2) s

/-- The state with the key held. -/
def withKey (s : State) (k : KeyIdx) : State := setKeyEffect k true s

/-- The state with one pixel set. -/
def withPixel (s : State) (row : Fin 32) (col : Fin 64) : State := { s with fb := flipPixel s.fb row col }

/-- The state under other parameters. -/
def withParams (s : State) (f : Params → Params) : State := { s with env := { s.env with params := f s.env.params } }

/-- The state with the stack depth. -/
def withSp (s : State) (sp : Fin 17) : State := { s with sp := sp }

/-- What `f` reads from the state a transaction leaves. -/
def after {α : Type} (t : Transaction) (s : State) (f : State → α) : Option α :=
  match transact t s with
  | .next u => some (f u)
  | .fault _ => none
  | .refused _ => none

/-- What `f` reads after STEP with random byte 0x00. -/
def ran {α : Type} (s : State) (f : State → α) : Option α := after (.step 0x00) s f

/-- Rule R134's example. -/
theorem test_ldImm : ran (word 0x63AB) (fun t => (t.reg 3, t.pc)) = some (0xAB, 0x0202) := by decide
/-- Rule R135's example: no carry. -/
theorem test_addImm : ran (withRegs (word 0x7001) [(0, 0xFF)]) (fun t => (t.reg 0, t.reg 15)) = some (0x00, 0x00) := by
  decide
/-- R135: VF as the destination receives the sum. -/
theorem test_addImm_vf : ran (withRegs (word 0x7F01) [(15, 0x01)]) (fun t => t.reg 15) = some 0x02 := by decide
/-- Rule R136's example. -/
theorem test_ldReg : ran (withRegs (word 0x8120) [(2, 0x5A)]) (fun t => (t.reg 1, t.reg 2)) = some (0x5A, 0x5A) := by decide
/-- Rule R137's example, VF not reset. -/
theorem test_orReg :
    ran (withRegs (word 0x8121) [(1, 0xF0), (2, 0x0F), (15, 0x07)]) (fun t => (t.reg 1, t.reg 15)) = some (0xFF, 0x07) := by
  decide
/-- Rule R138's example. -/
theorem test_andReg : ran (withRegs (word 0x8122) [(1, 0xF0), (2, 0x3C)]) (fun t => t.reg 1) = some 0x30 := by decide
/-- Rule R139's example. -/
theorem test_xorReg : ran (withRegs (word 0x8123) [(1, 0xFF), (2, 0x0F)]) (fun t => t.reg 1) = some 0xF0 := by decide
/-- L1.1. -/
theorem test_addReg_carry :
    ran (withRegs (word 0x8014) [(0, 0xFF), (1, 0xFF)]) (fun t => (t.reg 0, t.reg 15)) = some (0xFE, 0x01) := by decide
/-- L1.1: the operand VF is the old value. -/
theorem test_addReg_vf_operand :
    ran (withRegs (word 0x81F4) [(1, 0xFF), (15, 0x01)]) (fun t => (t.reg 1, t.reg 15)) = some (0x00, 0x01) := by decide
/-- Rule R141's second example: VF stays. -/
theorem test_subReg_unchanged :
    ran (withRegs (word 0x8235) [(2, 0x03), (3, 0x05), (15, 0x01)]) (fun t => (t.reg 2, t.reg 15)) = some (0xFE, 0x01) := by
  decide
/-- L2.1 #22 under the parameter value `zero`. -/
theorem test_subReg_zero :
    ran (withParams (withRegs (word 0x8235) [(2, 0x07), (3, 0x07), (15, 0xAA)]) (fun p => { p with subFlag8XY5 := .zero }))
      (fun t => (t.reg 2, t.reg 15)) = some (0x00, 0x00) := by decide
/-- L2.1 #28. -/
theorem test_shr :
    ran (withRegs (word 0x84A6) [(4, 0xFF), (10, 0x12)]) (fun t => (t.reg 4, t.reg 15, t.reg 10)) =
      some (0x7F, 0x01, 0x12) := by decide
/-- L2.1 #29: the result lands last. -/
theorem test_shr_vf : ran (withRegs (word 0x8F06) [(15, 0x06)]) (fun t => t.reg 15) = some 0x03 := by decide
/-- L2.1 #31. -/
theorem test_subnReg :
    ran (withRegs (word 0x8567) [(5, 0x0A), (6, 0x03), (15, 0x01)]) (fun t => (t.reg 5, t.reg 15)) = some (0xF9, 0x00) := by
  decide
/-- L2.1 #32: equal operands clear VF. -/
theorem test_subnReg_equal :
    ran (withRegs (word 0x8567) [(5, 0x07), (6, 0x07), (15, 0x01)]) (fun t => (t.reg 5, t.reg 15)) = some (0x00, 0x00) := by
  decide
/-- L2.1 #35: bit 3 is not the flag. -/
theorem test_shl_bit3 :
    ran (withRegs (word 0x870E) [(7, 0x08), (15, 0x01)]) (fun t => (t.reg 7, t.reg 15)) = some (0x10, 0x00) := by decide
/-- L2.1 #36. -/
theorem test_shl_bit7 : ran (withRegs (word 0x870E) [(7, 0x80)]) (fun t => (t.reg 7, t.reg 15)) = some (0x00, 0x01) := by
  decide
/-- Rule R145's example. -/
theorem test_rnd : after (.step 0xA7) (word 0xC30F) (fun t => t.reg 3) = some 0x07 := by decide
/-- L2.2 #1. -/
theorem test_jp : ran (word 0x1234) (fun t => t.pc) = some 0x0234 := by decide
/-- L2.2 #3. -/
theorem test_call :
    ran ({ State.reset with pc := 0x0204 }.withFetchWord 16 0x2300) (fun t => (t.stack[0], t.sp, t.pc)) =
      some (0x0206, 1, 0x0300) := by decide
/-- L2.2 #4. -/
theorem test_call_overflow :
    ran (withSp { State.reset with pc := 0x0204 } 16 |>.withFetchWord 16 0x2300) (fun t => (t.fault, t.pc, t.sp, t.mode)) =
      some ({ kind := .stackOverflow, pc := 0x0204, opcode := 0x2300 }, 0x0206, 16, .running) := by decide
/-- L2.2 #5: the popped entry stays. -/
theorem test_ret :
    ran ({ State.reset with pc := 0x0300, sp := 1, stack := State.reset.stack.set 0 0x0206 }.withFetchWord 16 0x00EE)
      (fun t => (t.pc, t.sp, t.stack[0])) = some (0x0206, 0, 0x0206) := by decide
/-- L2.2 #6. -/
theorem test_ret_underflow :
    ran ({ State.reset with pc := 0x0300 }.withFetchWord 16 0x00EE) (fun t => (t.fault, t.pc, t.sp)) =
      some ({ kind := .stackUnderflow, pc := 0x0300, opcode := 0x00EE }, 0x0302, 0) := by decide
/-- L2.2 #10: the word at 0xFFFE is fetched from 0xFFE, and pc wraps. -/
theorem test_seImm_wraps :
    ran (withRegs ({ State.reset with pc := 0xFFFE }.withFetchWord 16 0x3142) [(1, 0x42)]) (fun t => t.pc) = some 0x0002 := by
  decide
/-- L2.2 #8. -/
theorem test_seImm_not : ran (withRegs (word 0x3142) [(1, 0x41)]) (fun t => t.pc) = some 0x0202 := by decide
/-- L2.2 #11. -/
theorem test_sneImm : ran (withRegs (word 0x4142) [(1, 0x41)]) (fun t => t.pc) = some 0x0204 := by decide
/-- L2.2 #13. -/
theorem test_seReg : ran (withRegs (word 0x5120) [(1, 0x10), (2, 0x10)]) (fun t => t.pc) = some 0x0204 := by decide
/-- L2.2 #16. -/
theorem test_sneReg : ran (withRegs (word 0x9120) [(1, 0x10), (2, 0x11)]) (fun t => t.pc) = some 0x0204 := by decide
/-- L2.2 #20. -/
theorem test_jpV0 : ran (withRegs (word 0xBFFF) [(0, 0xFF)]) (fun t => t.pc) = some 0x10FE := by decide
/-- L2.3 #1. -/
theorem test_ldI : ran (word 0xA2F0) (fun t => t.i) = some 0x02F0 := by decide
/-- L2.3 #3: past 0xFFF with no flag. -/
theorem test_addI : ran (withRegs ((word 0xF21E).setI 0x0FFF) [(2, 0x01)]) (fun t => (t.i, t.reg 15)) = some (0x1000, 0x00) := by
  decide
/-- L2.3 #4. -/
theorem test_addI_wraps : ran (withRegs ((word 0xF21E).setI 0xFFFF) [(2, 0x01)]) (fun t => t.i) = some 0x0000 := by decide
/-- L2.3 #7: the low digit. -/
theorem test_ldFont : ran (withRegs (word 0xF029) [(0, 0x1A)]) (fun t => t.i) = some 0x0082 := by decide
/-- L2.3 #15. -/
theorem test_ldBcd_wraps :
    ran (withRegs ((word 0xF333).setI 0x0FFF) [(3, 0x7B)]) (fun t => (t.cell 0xFFF, t.cell 0, t.cell 1, t.i)) =
      some (0x01, 0x02, 0x03, 0x0FFF) := by decide
/-- L2.3 #16. -/
theorem test_storeRegs :
    ran (withRegs ((word 0xF255).setI 0x0400) [(0, 0x11), (1, 0x22), (2, 0x33), (3, 0x44)])
      (fun t => (t.cell 0x400, t.cell 0x401, t.cell 0x402, t.cell 0x403, t.i)) = some (0x11, 0x22, 0x33, 0x00, 0x0400) := by
  decide
/-- L2.3 #19. -/
theorem test_loadRegs_one : ran ((word 0xF065).setI 0x0050) (fun t => (t.reg 0, t.reg 1, t.i)) = some (0xF0, 0x00, 0x0050) := by
  decide
/-- L2.3 #20: VF is loaded from M[0x05F]. -/
theorem test_loadRegs_all : ran ((word 0xFF65).setI 0x0050) (fun t => (t.reg 5, t.reg 14, t.reg 15)) = some (0x20, 0xF0, 0xF0) := by
  decide
/-- L2.4 #1. -/
theorem test_cls :
    ran (withPixel (word 0x00E0) 31 63) (fun t => (pixel t.fb 31 63, pixel t.fb 0 0, t.redraw)) = some (false, false, true) := by
  decide
/-- L2.4 #8: the row wraps onto a set pixel, which is cleared, and VF is 1. -/
theorem test_drw_wraps :
    ran (withRegs (withPixel ((word 0xD121).setI 0x0050) 0 0) [(1, 0x3E)])
      (fun t => ([61, 62, 63, 0, 1, 2].map (pixel t.fb 0), t.reg 15, t.redraw)) =
      some ([false, true, true, false, true, false], 0x01, true) := by decide
/-- L2.4 #8 under DRAW_EDGE = clip. -/
theorem test_drw_clips :
    ran (withParams (withRegs (withPixel ((word 0xD121).setI 0x0050) 0 0) [(1, 0x3E)]) (fun p => { p with drawEdge := .clip }))
      (fun t => ([61, 62, 63, 0, 1, 2].map (pixel t.fb 0), t.reg 15)) =
      some ([false, true, true, true, false, false], 0x00) := by decide
/-- L2.6 #1. -/
theorem test_skp : ran (withKey (withRegs (word 0xE59E) [(5, 0x0A)]) 0xA) (fun t => t.pc) = some 0x0204 := by decide
/-- L2.6 #3: there is no key 0x1A. -/
theorem test_skp_no_key : ran (withKey (withRegs (word 0xE59E) [(5, 0x1A)]) 0xA) (fun t => t.pc) = some 0x0202 := by decide
/-- L2.6 #5. -/
theorem test_sknp : ran (withKey (withRegs (word 0xE5A1) [(5, 0x0A)]) 0xA) (fun t => t.pc) = some 0x0202 := by decide
/-- L2.6 #7. -/
theorem test_ldKey_waits :
    ran (withRegs (word 0xF30A) [(3, 0x55)]) (fun t => (t.pc, t.reg 3, t.mode)) = some (0x0200, 0x55, .awaitingKey) := by decide
/-- L2.6 #8, from AWAITING-KEY. -/
theorem test_ldKey_lowest :
    ran ((withKey (withKey (word 0xF30A) 7) 3).setMode .awaitingKey) (fun t => (t.pc, t.reg 3, t.mode)) =
      some (0x0202, 0x03, .running) := by decide
/-- L2.6 #10. -/
theorem test_ldFromDt : ran ((word 0xF107).setDt 0x3C) (fun t => t.reg 1) = some 0x3C := by decide
/-- L2.6 #11. -/
theorem test_ldDt : ran (withRegs (word 0xF215) [(2, 0x0A)]) (fun t => (t.dt, t.st)) = some (0x0A, 0x00) := by decide
/-- L2.6 #12. -/
theorem test_ldSt : ran (withRegs (word 0xF218) [(2, 0x05)]) (fun t => (t.dt, t.st)) = some (0x00, 0x05) := by decide

/-! The other transactions. -/

/-- L2.5 #1 and R272: the core with nothing loaded. -/
theorem test_unknownOpcode :
    ran State.reset (fun t => (t.fault, t.pc)) = some ({ kind := .unknownOpcode, pc := 0x0200, opcode := 0x0000 }, 0x0202) := by
  decide
/-- L2.5 #7: a fetch at an odd pc. -/
theorem test_odd_pc :
    ran ({ State.reset with pc := 0x0201 }.withFetchWord 16 0x602A) (fun t => (t.reg 0, t.pc)) = some (0x2A, 0x0203) := by decide
/-- L2.5 #2 and R102: a STEP on a halted core changes nothing, and the RESET behind it is reached. -/
theorem test_halted_then_reset :
    (match step { State.reset with
        fault := { kind := .unknownOpcode, pc := 0x0200, opcode := 0x0000 }
        pc := 0x0202
        env := { State.reset.env with inbox := [.step 0x00, .reset] } } with
      | .next t => some (t.pc, t.fault.kind, t.env.inbox, match step t with
        | .next u => some (u.pc, u.fault.kind)
        | .fault _ => none
        | .refused _ => none)
      | .fault _ => none
      | .refused _ => none) = some (0x0202, .unknownOpcode, [.reset], some (0x0200, .noFault)) := by decide
/-- R51 and R241 under ADDR_OOB = fault: FX33 at I = 0xFFE latches ProgramError(0x1000), stores nothing and leaves pc = a + 2. -/
theorem test_programError :
    ran (withParams (withRegs ((word 0xF333).setI 0x0FFE) [(3, 0x7B)]) (fun p => { p with addrOob := .fault }))
      (fun t => (t.fault, t.pc, t.cell 0xFFE)) =
      some ({ kind := .programError 0x1000, pc := 0x0200, opcode := 0xF333 }, 0x0202, 0x00) := by decide
/-- R51 under ADDR_OOB = fault: the fetch at 0xFFF fails at its second byte. -/
theorem test_programError_fetch :
    ran (withParams { State.reset with pc := 0x0FFF } (fun p => { p with addrOob := .fault }))
      (fun t => (t.fault.kind, t.fault.pc, t.pc)) = some (.programError 0x1000, 0x0FFF, 0x0FFF) := by decide
/-- L2.5 #11: LOAD keeps the cells past the image. -/
theorem test_load_keeps :
    after (.load [0x12]) (word 0x00E0) (fun t => (t.cell 0x200, t.cell 0x201)) = some (0x12, 0xE0) := by decide
/-- L2.6 #13. -/
theorem test_tick : after (.tick 4) ((State.reset.setDt 5).setSt 3) (fun t => (t.dt, t.st)) = some (0x01, 0x00) := by decide
/-- L2.6 #17, #18. -/
theorem test_redraw :
    response .readFb { State.reset with redraw := true } = .screen State.reset.fb true ∧
    after .clearRedraw { State.reset with redraw := true } (fun t => t.redraw) = some false := by decide

/-! Witnesses: a concrete state and operands that meet each statement's hypotheses, at the boundaries of their ranges. -/

/-- The state under ADDR_OOB = fault. -/
def faulting (s : State) : State := withParams s (fun p => { p with addrOob := .fault })

/-- A halted core with the given transactions to come. -/
def haltedWith (inbox : List Transaction) : State :=
  { State.reset with
    pc := 0x0202
    fault := { kind := .unknownOpcode, pc := 0x0200, opcode := 0x0000 }
    env := { State.reset.env with inbox := inbox } }

theorem witness_EncodeThenDecode :
    (Instr.drw 15 15 15).wellFormed = true ∧ (Instr.jp 0xFFF).wellFormed = true ∧ (Instr.shl 15 15).wellFormed = true := by
  decide
theorem witness_DecodeThenEncode : decode 0x8FFE = .ok (.shl 15 15) ∧ decode 0xDFFF = .ok (.drw 15 15 15) := by decide
theorem witness_DecoderAccepts_row : (opcodeTable.filter (fun r => r.matchesWord 0xFF65)).map OpcodeRow.mnemonic = ["FX65"] := by
  decide
theorem witness_DecoderAccepts_none : opcodeTable.all (fun r => !r.matchesWord 0x5121) = true := by decide
theorem witness_OpcodeRowsDisjoint :
    (⟨"8XY6", 0xF00F, 0x8006⟩ : OpcodeRow) ∈ opcodeTable ∧
    (⟨"8XY6", 0xF00F, 0x8006⟩ : OpcodeRow).matchesWord 0x8FF6 = true := by decide
theorem witness_RowDecodes_masks :
    (0x63AB#16 &&& 0xF000 = 0x6000) ∧ (0x8126#16 &&& 0xF00F = 0x8006) ∧ (0xEFA1#16 &&& 0xF0FF = 0xE0A1) ∧
    (0x00EE#16 &&& 0xFFFF = 0x00EE) := by decide

/-- The hypotheses of StepRunsTheDecodedInstruction with an empty inbox, at the last address the address unit lets pass. -/
theorem witness_StepRuns_free :
    let s := faulting { State.reset with pc := 0x0FFE } |>.withFetchWord 16 0xC3FF
    decode s.fetchWord = .ok (.rnd 3 0xFF) ∧ s.fault.kind = .noFault ∧ AccessOk s s.pc.toNat 2 ∧ s.env.inbox = [] :=
  ⟨by decide, rfl, .inr (.inr (by decide)), rfl⟩
/-- The same with a STEP of the host at the front of the inbox, at the last pc. -/
theorem witness_StepRuns_host :
    let s := { State.reset with pc := 0xFFFF }.withFetchWord 16 0xC3FF
    let t := { s with env := { s.env with inbox := [.step 0xA7, .tick 1] } }
    decode t.fetchWord = .ok (.rnd 3 0xFF) ∧ t.fault.kind = .noFault ∧ AccessOk t t.pc.toNat 2 ∧
      t.env.inbox = .step 0xA7 :: [.tick 1] :=
  ⟨by decide, rfl, .inl rfl, rfl⟩
/-- StepPerformsTheHostsTransactions, on a halted core: a STEP with a RESET behind it. -/
theorem witness_StepPerforms : (haltedWith [.step 0x00, .reset]).env.inbox = .step 0x00 :: [.reset] := rfl
/-- IllegalWordRaisesUnknownOpcode, at the last address the address unit lets pass. -/
theorem witness_IllegalWord :
    let s := faulting { State.reset with pc := 0x0FFE }
    s.fault.kind = .noFault ∧ AccessOk s s.pc.toNat 2 ∧ decode s.fetchWord = .error (.unknownOpcode s.fetchWord) :=
  ⟨rfl, .inr (.inr (by decide)), by decide⟩
/-- HaltedStepChangesNothing, both clauses. -/
theorem witness_HaltedStep :
    (haltedWith []).fault.kind ≠ .noFault ∧ (haltedWith []).env.inbox = [] ∧
    (haltedWith [.step 7]).fault.kind ≠ .noFault ∧ (haltedWith [.step 7]).env.inbox = .step 7 :: [] :=
  ⟨by decide, rfl, by decide, rfl⟩
/-- FaultsArePrecise: each of the three faults. -/
theorem witness_FaultsArePrecise :
    (word 0x5121).fault.kind = .noFault ∧ ran (word 0x5121) (fun t => t.fault.kind) = some .unknownOpcode ∧
    ran (withSp (word 0x2300) 16) (fun t => t.fault.kind) = some .stackOverflow ∧
    ran (word 0x00EE) (fun t => t.fault.kind) = some .stackUnderflow := by decide
/-- Its two clauses meet where the fetch first fails: 0xFFE is fetched whole, 0xFFF is not. -/
theorem witness_FaultsArePrecise_fetch :
    AccessOk (faulting { State.reset with pc := 0x0FFE }) 0x0FFE 2 ∧
    ¬ AccessOk (faulting { State.reset with pc := 0x0FFF }) 0x0FFF 2 ∧
    ran (faulting { State.reset with pc := 0x0FFF }) (fun t => decide (t.fault.kind ≠ .noFault)) = some true :=
  ⟨.inr (.inr (by decide)), by rintro (h | h | h) <;> revert h <;> decide, by decide⟩
/-- OnlyResetLeavesTheHaltedState: a LOAD that changes memory, on a halted core. -/
theorem witness_OnlyReset :
    (haltedWith []).fault.kind ≠ .noFault ∧
    after (.load [0x12]) (haltedWith []) (fun u => (u.cell 0x200, u.fault.kind)) = some (0x12, .unknownOpcode) := by decide
/-- AwaitingKeyRefetchesTheSameInstruction, with the FX0A at address 0. -/
theorem witness_Awaiting :
    ran ({ State.reset with pc := 0 }.withFetchWord 16 0xF30A) (fun t => (t.mode, t.pc)) = some (.awaitingKey, 0x0000) := by decide
/-- Subtraction: V[x] > V[y] by one, V[x] = V[y], and each parameter value. -/
theorem witness_Subtract :
    let s := withRegs State.reset [(2, 0x08), (3, 0x07), (4, 0x07)]
    (s.reg 3).toNat < (s.reg 2).toNat ∧ (s.reg 3).toNat ≤ (s.reg 4).toNat ∧ s.env.params.subFlag8XY5 = .unchanged ∧
    (withParams s (fun p => { p with subFlag8XY5 := .zero })).env.params.subFlag8XY5 = .zero ∧ (14 : RegIdx) ≠ 15 := by decide
/-- FlagRegisterHasSixSideEffectWriters: a side effect of 8XY4, and 7XNN with VF its destination. -/
theorem witness_FlagRegister :
    ran (withRegs (word 0x8014) [(0, 0xFF), (1, 0x01)]) (fun t => decide (t.reg 15 ≠ 0)) = some true ∧
    (Instr.addReg 0 1).mnemonic = "8XY4" ∧ writesFlagAsDestination (.addReg 0 1) = false ∧
    ran (word 0x7F01) (fun t => decide (t.reg 15 ≠ 0)) = some true ∧ writesFlagAsDestination (.addImm 15 1) = true := by decide
/-- Its clauses for DXYN and for 8XY5. -/
theorem witness_FlagRegister_draw :
    (Instr.drw 1 2 1).mnemonic = "DXYN" ∧ ran (word 0xD121) (fun t => t.fault.kind) = some .noFault ∧
    ran (word 0x8235) (fun t => t.reg 15) = some 0x00 ∧ (2 : RegIdx) ≠ 15 := by decide
theorem witness_OffsetJump : (0x0FFF : Word).toNat < 4096 := by decide
/-- 2NNN with one entry free and with none; 00EE with one entry and with none. -/
theorem witness_CallReturn :
    (withSp State.reset 15).sp.val < 16 ∧ (withSp State.reset 16).sp.val = 16 ∧ 0 < (withSp State.reset 1).sp.val ∧
    State.reset.sp.val = 0 := by decide
theorem witness_SeventeenthCall : State.reset.sp.val = 0 ∧ (List.replicate 16 (0x200 : Word)).length = 16 := by decide
theorem witness_SeventeenthReturn : (withSp State.reset 16).sp.val = 16 ∧ State.reset.sp.val = 0 := by decide
/-- The font is in its cells after reset. -/
theorem witness_Glyph : ∀ k : Fin 80, State.reset.cell (0x050 + k.val) = State.reset.env.params.font[k] := by
  intro k
  simp [State.reset, State.cell, Memory.read, resetByte, Config.fontBase, Config.fontSize]
/-- FX33, FX55 and FX65 up to the last cell under ADDR_OOB = fault, with memory in canonical form. -/
theorem witness_MemoryAccess :
    let s := faulting (State.reset.setI 0x0FFD)
    MemoryOk s ∧ AccessOk s s.i.toNat 3 ∧ AccessOk (s.setI 0x0FF0) (s.setI 0x0FF0).i.toNat ((15 : RegIdx).val + 1) :=
  ⟨Memory.wf_nil _, .inr (.inr (by decide)), .inr (.inr (by decide))⟩
/-- A register past x and one not past it; a cell outside the block. -/
theorem witness_Blocks :
    (2 : RegIdx) ≤ 2 ∧ ¬ ((3 : RegIdx) ≤ 2) ∧ (∀ r : RegIdx, r ≤ 2 → addrOf (0x0FFF + r.val) ≠ 2) ∧
    (∀ k < 3, addrOf (0x0FFF + k) ≠ 2) := by decide
/-- OutOfRangeAccessStopsUnderFault: each clause one past its last allowed base (FX33, FX55 and FX65 with x = 0, DXYN with one
row, the fetch). -/
theorem witness_OutOfRange :
    (faulting State.reset).env.params.addrOob = .fault ∧ 4096 < (0x0FFE : Word).toNat + 3 ∧
    4096 < (0x1000 : Word).toNat + ((0 : RegIdx).val + 1) ∧ 0 < 1 ∧ 4096 < (0x1000 : Word).toNat + 1 ∧ 4096 < (0x0FFF : Word).toNat + 2 ∧
    (faulting State.reset).fault.kind = .noFault := by decide
theorem witness_FetchSees :
    let s := { State.reset with pc := 0x0FFF, i := 0x0FFF }
    MemoryOk s ∧ AccessOk s s.pc.toNat 2 ∧ s.i = s.pc := ⟨Memory.wf_nil _, .inl rfl, rfl⟩
/-- A draw of 15 rows at the screen's corner: the access, a covered pixel that wraps, an uncovered one, a collision. -/
theorem witness_Draw :
    let s := withRegs (withPixel (State.reset.setI 0x0050) 0 0) [(1, 0x3D), (2, 0x1F)]
    15 < 16 ∧ AccessOk s s.i.toNat 15 ∧ SpriteCovers s 1 2 15 0 0 ∧ pixel s.fb 0 0 = true ∧ ¬ SpriteCovers s 1 2 0 0 0 :=
  ⟨by decide, .inl rfl, ⟨1, by decide, 3, by decide, by unfold SpriteBit; decide, by decide, by decide⟩, by decide,
    by rintro ⟨r, hr, -⟩; exact absurd hr (Nat.not_lt_zero r)⟩
/-- DrawingTwiceRestoresTheScreen: the first draw on a blank screen finds no collision, and the sprite has a set bit. -/
theorem witness_DrawingTwice :
    let s := State.reset.setI 0x0050
    s.env.params.drawEdge = .wrap ∧ (∃ r < 1, ∃ c < 8, SpriteBit s r c) ∧
    ran ((word 0xD121).setI 0x0050) (fun t => t.reg 15) = some 0x00 :=
  ⟨rfl, ⟨0, by decide, 0, by decide, by unfold SpriteBit; decide⟩, by decide⟩
/-- FX0A: the lowest held key is the last one; no key is held. -/
theorem witness_WaitKey :
    (withKey State.reset 15).keys[(15 : KeyIdx)] = true ∧
    (∀ j : KeyIdx, j < 15 → (withKey State.reset 15).keys[j] = false) ∧ ∀ k : KeyIdx, State.reset.keys[k] = false := by decide
/-- EachPieceHasItsWriters: a V register, I, pc and REDRAW each changed by one of its writers. -/
theorem witness_EachPiece :
    ran (word 0x63AB) (fun t => decide (t.v ≠ State.reset.v)) = some true ∧
    ran (word 0xA2F0) (fun t => decide (t.i ≠ State.reset.i)) = some true ∧
    (match exec (.jp 0x0300) State.reset with
      | .next t => some (decide (t.pc ≠ State.reset.pc))
      | .fault _ => none
      | .refused _ => none) = some true ∧
    ran (word 0x00E0) (fun t => t.redraw) = some true := by decide
/-- OnlyRandomInstructionReadsTheRandomByte: an instruction that completes and is not CXNN. -/
theorem witness_Exec : (∃ t, exec .cls State.reset = .next t) ∧ Instr.cls.mnemonic ≠ "CXNN" := ⟨⟨_, rfl⟩, by decide⟩
/-- StaleStackEntriesAreNeverRead: the states differ in the stale entry S[1], and 00EE runs in the first. -/
theorem witness_Stale :
    let s := withSp State.reset 1
    let t := { s with stack := s.stack.set 1 0xFFFF }
    SameButStale s t ∧ s ≠ t ∧ ∃ u, exec .ret s = .next u :=
  ⟨⟨rfl, by decide⟩, by decide, ⟨_, rfl⟩⟩
/-- EveryStepKeepsTheInvariant: the reset state meets it and steps, also when the host's next transaction is a LOAD. -/
theorem witness_Invariant :
    State.reset.Inv ∧ (∃ t, step State.reset = .next t) ∧
    ∃ t, step { State.reset with env := { State.reset.env with inbox := [.load [1, 2]] } } = .next t :=
  ⟨⟨Memory.wf_nil _, ⟨rfl, rfl⟩, fun h => absurd rfl h⟩, ⟨_, rfl⟩, ⟨_, rfl⟩⟩
/-- LoadInstallsTheImageOrNothing: an image that just fits and one that is a byte too long. -/
theorem witness_Load :
    MemoryOk State.reset ∧ (List.replicate 3584 (0 : Byte)).length ≤ 3584 ∧ 3584 < (List.replicate 3585 (0 : Byte)).length :=
  ⟨Memory.wf_nil _, by rw [List.length_replicate], by rw [List.length_replicate]; decide⟩
/-- ResetLeavesTheResetValues: a cell on each side of the font. -/
theorem witness_Reset : (0x04F < 0x050 ∨ 0x09F < 0x04F) ∧ (0x0A0 < 0x050 ∨ 0x09F < 0x0A0) := by decide

end Sys2Proof.Tests
end

section
/-! PROOF. The decoder read backwards: a decoded word is the word its instruction encodes to, and a rejection names its word. -/

namespace Sys2Proof

variable {w : Word} {i : Instr}

/-! A format rebuilt from the fields of a word is that word (R81, R82). -/

theorem formatA_nnnField {op : BitVec 4} (hop : opField w = op.toNat) : formatA op (nnnField w) = w := by
  apply BitVec.eq_of_toNat_eq
  have := w.isLt
  rw [opField_eq] at hop
  rw [formatA_toNat, nnnField_toNat, ← hop]
  omega

theorem formatB_xField {op : BitVec 4} {nn : Byte} (hop : opField w = op.toNat) (hnn : (nnField w).toNat = nn.toNat) :
    formatB op (xField w) nn = w := by
  apply BitVec.eq_of_toNat_eq
  have := w.isLt
  rw [opField_eq] at hop
  rw [nnField_toNat] at hnn
  rw [formatB_toNat, xField_val, ← hop, ← hnn]
  omega

theorem formatR_xField_yField {op n : BitVec 4} (hop : opField w = op.toNat) (hn : nField w = n.toNat) :
    formatR op (xField w) (yField w) n = w := by
  apply BitVec.eq_of_toNat_eq
  have := w.isLt
  rw [opField_eq] at hop
  rw [nField_eq] at hn
  rw [formatR_toNat, xField_val, yField_val, ← hop, ← hn]
  omega

/-! The families that dispatch on N or NN (R85). -/

theorem encode_of_decode8 (hop : opField w = 0x8) (h : decode8 w = .ok i) : encode i = w := by
  unfold decode8 at h
  split at h <;> cases h
  all_goals exact formatR_xField_yField hop ‹nField w = _›

theorem encode_of_decodeE (hop : opField w = 0xE) (h : decodeE w = .ok i) : encode i = w := by
  unfold decodeE at h
  split at h <;> cases h
  all_goals exact formatB_xField hop ‹(nnField w).toNat = _›

theorem encode_of_decodeF (hop : opField w = 0xF) (h : decodeF w = .ok i) : encode i = w := by
  unfold decodeF at h
  split at h <;> cases h
  all_goals exact formatB_xField hop ‹(nnField w).toNat = _›

/-- A word that decodes is the word its instruction encodes to (R85, R86). -/
theorem encode_of_decode (h : decode w = .ok i) : encode i = w := by
  unfold decode at h
  split at h
  case h_1 =>
    split at h
    · cases h; exact ‹w = _›.symm
    · split at h <;> cases h
      exact ‹w = _›.symm
  case h_6 | h_10 =>
    split at h <;> cases h
    exact formatR_xField_yField ‹opField w = _› ‹nField w = _›
  case h_9 => exact encode_of_decode8 ‹opField w = _› h
  case h_15 => exact encode_of_decodeE ‹opField w = _› h
  case h_16 => exact encode_of_decodeF ‹opField w = _› h
  case h_2 | h_3 | h_11 | h_12 => cases h; exact formatA_nnnField ‹opField w = _›
  case h_4 | h_5 | h_7 | h_8 | h_13 => cases h; exact formatB_xField ‹opField w = _› rfl
  case h_14 =>
    cases h
    exact formatR_xField_yField ‹opField w = _› (by simp [nField])
  case h_17 => cases h

/-- The decoder rejects a word by naming it (R87, R88). -/
theorem decode_error {e : DecodeReject} (h : decode w = .error e) : e = .unknownOpcode w := by
  unfold decode decode8 decodeE decodeF at h
  repeat' split at h
  all_goals cases h <;> rfl

end Sys2Proof
end

section
/-! PROOF. What each instruction can do to the whole state, said once: the update its rule names, with every other piece as it
was. The statements about the writers of a piece, VF and the memory's form are read off from it. -/

namespace Sys2Proof.Machine

open Sys2Proof.Spec

/-- The states in which `i`, run in `s`, can end: one constructor for each update, with the mnemonics of the instructions that
perform it (R22 to R30, R58, R117, R240). -/
inductive Effect (i : Instr) (s : State) : State → Prop
  /-- V[x] <- b (R22). -/
  | register (x : RegIdx) (b : Byte)
      (hi : i.mnemonic ∈ ["6XNN", "7XNN", "8XY0", "8XY1", "8XY2", "8XY3", "8XY5", "CXNN", "FX07", "FX0A"])
      (hx : writesFlagAsDestination i = decide (x = 15)) : Effect i s ((s.setReg x b).setMode .running)
  /-- VF <- f, and then V[x] <- b (R131). -/
  | flagThenRegister (f : Byte) (x : RegIdx) (b : Byte) (hi : i.mnemonic ∈ ["8XY4", "8XY5", "8XY6", "8XY7", "8XYE"]) :
      Effect i s (((s.setReg flagReg f).setReg x b).setMode .running)
  /-- V[0], …, V[x] <- the bytes (R186). -/
  | registers (x : RegIdx) (bytes : List Byte) (hi : i = .loadRegs x) (hl : bytes.length = x.val + 1) :
      Effect i s ((s.setRegs bytes).setMode .running)
  /-- I <- w (R25). -/
  | index (w : Word) (hi : i.mnemonic ∈ ["ANNN", "FX1E", "FX29"]) : Effect i s ((s.setI w).setMode .running)
  /-- pc <- w, the pc as it was where a skip is not taken (R26). -/
  | jump (w : Word) (hi : i.mnemonic ∈ ["3XNN", "4XNN", "5XY0", "9XY0", "EX9E", "EXA1", "1NNN", "BNNN"]) :
      Effect i s ((s.setPc w).setMode .running)
  /-- A push or a pop, and pc <- w (R27). -/
  | callOrReturn (stack : Vector Word 16) (sp : Fin 17) (w : Word) (hi : i.mnemonic ∈ ["2NNN", "00EE"]) :
      Effect i s (((s.setStack stack sp).setPc w).setMode .running)
  /-- DT <- b (R28). -/
  | delay (b : Byte) (hi : i.mnemonic = "FX15") : Effect i s ((s.setDt b).setMode .running)
  /-- ST <- b (R28). -/
  | sound (b : Byte) (hi : i.mnemonic = "FX18") : Effect i s ((s.setSt b).setMode .running)
  /-- FB <- fb, REDRAW <- 1 (R29, R30). -/
  | clear (fb : Framebuffer) (hi : i.mnemonic = "00E0") : Effect i s ((s.setScreen fb).setMode .running)
  /-- FB <- fb, REDRAW <- 1, VF <- hit (R201). -/
  | draw (fb : Framebuffer) (hit : Bool) (hi : i.mnemonic = "DXYN") :
      Effect i s (((s.setScreen fb).setReg flagReg (flagByte hit)).setMode .running)
  /-- MemWrite of the bytes (R58). -/
  | store (base : Nat) (bytes : List Byte) (hi : i.mnemonic ∈ ["FX33", "FX55"]) :
      Effect i s ((s.memWriteBytes base bytes).setMode .running)
  /-- A blocked FX0A (R222). -/
  | blocked (hi : i.mnemonic = "FX0A") : Effect i s (s.refetch.setMode .awaitingKey)
  /-- StackOverflow or StackUnderflow (R240). -/
  | stackFault (k : FaultKind) (w : Word) (hi : i.mnemonic ∈ ["2NNN", "00EE"]) : Effect i s (raiseFault k w s)
  /-- ProgramError(v), under ADDR_OOB = fault only (R51). -/
  | accessFault (v : Nat) (w : Word) (hp : s.env.params.addrOob = .fault)
      (hi : i.mnemonic ∈ ["DXYN", "FX33", "FX55", "FX65"]) : Effect i s (raiseFault (.programError v) w s)

/-- An instruction with accesses from I has the effect of its completion, or ProgramError. -/
theorem Effect.of_guardData {i : Instr} {s t u : State} (hi : i.mnemonic ∈ ["DXYN", "FX33", "FX55", "FX65"])
    (h : guardData i s (complete u) = .next t) (hu : Effect i s (u.setMode .running)) : Effect i s t := by
  rcases guardData_cases i s (complete u) with hg | ⟨hp, -, -, hg⟩ <;> rw [hg] at h
  · exact complete_next h ▸ hu
  · cases h; exact .accessFault _ _ hp hi

/-- Everything `exec` can do. -/
theorem exec_effect {i : Instr} {s t : State} (h : exec i s = .next t) : Effect i s t := by
  cases i <;> simp only [exec] at h
  case ldImm | addImm | ldReg | orReg | andReg | xorReg | rnd | ldFromDt =>
    exact complete_next h ▸ .register _ _ (by simp [Instr.mnemonic]) rfl
  case addReg | shr | subnReg | shl =>
    exact complete_next h ▸ .flagThenRegister _ _ _ (by simp [Instr.mnemonic])
  case subReg x y =>
    rw [complete_next h]
    cases subFlagWrite s.env.params.subFlag8XY5 (s.reg x) (s.reg y) with
    | none => exact .register x _ (by simp [Instr.mnemonic]) rfl
    | some f => exact .flagThenRegister f x _ (by simp [Instr.mnemonic])
  case ldKey x =>
    rw [execLdKey] at h
    split at h <;> cases h
    · exact .register x _ (by simp [Instr.mnemonic]) rfl
    · exact .blocked rfl
  case ldI | addI | ldFont => exact complete_next h ▸ .index _ (by simp [Instr.mnemonic])
  case jp | jpV0 => exact complete_next h ▸ .jump _ (by simp [Instr.mnemonic])
  case seImm | sneImm | seReg | sneReg | skp | sknp => exact skipIf_next h ▸ .jump _ (by simp [Instr.mnemonic])
  case ret =>
    rw [execRet] at h
    rcases pop_cases s with ⟨hp, _⟩ | ⟨_, hp⟩ <;> rw [hp] at h <;> cases h
    · exact .stackFault _ _ (by simp [Instr.mnemonic])
    · exact .callOrReturn _ _ _ (by simp [Instr.mnemonic])
  case call =>
    rw [execCall] at h
    rcases push_cases s s.pc with ⟨hp, _⟩ | ⟨_, hp⟩ <;> rw [hp] at h <;> cases h
    · exact .stackFault _ _ (by simp [Instr.mnemonic])
    · exact .callOrReturn _ _ _ (by simp [Instr.mnemonic])
  case ldDt => exact complete_next h ▸ .delay _ rfl
  case ldSt => exact complete_next h ▸ .sound _ rfl
  case cls => exact complete_next h ▸ .clear _ rfl
  case drw => exact .of_guardData (by simp [Instr.mnemonic]) h (.draw _ _ rfl)
  case ldBcd | storeRegs => exact .of_guardData (by simp [Instr.mnemonic]) h (.store _ _ (by simp [Instr.mnemonic]))
  case loadRegs x => exact .of_guardData (by simp [Instr.mnemonic]) h (.registers x _ rfl (Memory.readBytes_length _ _ _ _))

/-- Every instruction keeps the canonical form of memory (R59). -/
theorem exec_memoryOk {i : Instr} {s t : State} (hs : MemoryOk s) (h : exec i s = .next t) : MemoryOk t := by
  cases exec_effect h
  case store base bytes _ => exact Memory.writeBytes_wf _ _ hs base bytes
  all_goals exact hs

end Sys2Proof.Machine
end

section
/-! PROOF. VF (R23, R131): who changes it, and what a flag writer leaves there. -/

namespace Sys2Proof.Machine

open Sys2Proof.Spec

theorem flagByte_eq (b : Bool) : flagByte b = 0x00 ∨ flagByte b = 0x01 := by cases b <;> simp [flagByte]

/-- VF changes only by a flag writer or by an instruction whose destination it is (R23). -/
theorem exec_flagReg_writer {i : Instr} {s t : State} (h : exec i s = .next t) (hne : t.reg 15 ≠ s.reg 15) :
    i.mnemonic ∈ ["8XY4", "8XY5", "8XY6", "8XY7", "8XYE", "DXYN"] ∨ writesFlagAsDestination i = true := by
  cases exec_effect h
  case register x b _ hx =>
    by_cases h15 : (15 : RegIdx) = x
    · exact .inr (by simp [hx, h15])
    · exact absurd (by simp [h15]) hne
  case flagThenRegister hi => exact .inl (List.mem_append_left ["DXYN"] hi)
  case registers x bytes hi hl =>
    subst hi
    by_cases h15 : x = 15
    · exact .inr (by simp [writesFlagAsDestination, h15])
    · refine absurd ?_ hne
      have hlt : ¬ (15 : RegIdx).val < bytes.length := by
        rw [hl, Nat.lt_succ_iff]
        exact fun hle => h15 (Fin.le_antisymm (Fin.le_last x) hle)
      rw [setMode_reg, setRegs_reg, dif_neg hlt]
  case draw hi => exact .inl (by simp [hi])
  all_goals exact absurd rfl hne

/-- A flag written before a result for another register stands (R131). -/
theorem complete_flag {s t : State} {f : Option Byte} {x : RegIdx} {b : Byte}
    (h : complete (s.setFlagThenReg f x b) = .next t) (hx : x ≠ 15) : t.reg 15 = f.getD (s.reg 15) := by
  rw [complete_next h, setMode_reg, setFlagThenReg_reg, if_neg hx.symm, if_pos rfl]

/-- 8XY4, 8XY6, 8XY7 and 8XYE always write a flag (R132). -/
theorem exec_flag_of_always {i : Instr} {s t : State} (h : exec i s = .next t)
    (hi : i.mnemonic ∈ ["8XY4", "8XY6", "8XY7", "8XYE"]) (hx : writesFlagAsDestination i = false) :
    t.reg 15 = 0x00 ∨ t.reg 15 = 0x01 := by
  cases i <;> simp [Instr.mnemonic] at hi
  case addReg | shr | subnReg | shl =>
    rw [complete_flag h (by simpa [writesFlagAsDestination] using hx)]
    exact flagByte_eq _

/-- DXYN leaves a flag in VF when its accesses do not fail (R201). -/
theorem exec_drw_flag {x y : RegIdx} {rows : Nat} {s t : State} (h : exec (.drw x y rows) s = .next t)
    (hf : t.fault.kind = .noFault) : t.reg 15 = 0x00 ∨ t.reg 15 = 0x01 := by
  rw [exec, execDrw] at h
  rcases guardData_cases _ _ _ with hg | ⟨-, -, -, hg⟩ <;> rw [hg] at h
  · rw [complete_next h, setMode_reg, setReg_reg, if_pos rfl]
    exact flagByte_eq _
  · cases h; cases hf

/-- 8XY5 leaves a flag in VF, or leaves VF, under the parameter that says so (R141). -/
theorem exec_subReg_flag {x y : RegIdx} {s t : State} (h : exec (.subReg x y) s = .next t) (hx : x ≠ 15) :
    t.reg 15 = 0x00 ∨ t.reg 15 = 0x01 ∨
      t.reg 15 = s.reg 15 ∧ (s.reg x).toNat ≤ (s.reg y).toNat ∧ s.env.params.subFlag8XY5 = .unchanged := by
  rw [complete_flag h hx]
  unfold subFlagWrite
  split
  · exact .inr (.inl rfl)
  · split
    · exact .inr (.inr ⟨rfl, by omega, ‹_›⟩)
    · exact .inl rfl

end Sys2Proof.Machine
end

section
/-! PROOF. The four outcomes of 00EE and 2NNN as equations (R160 to R164). -/

namespace Sys2Proof.Machine

variable {s : State}

theorem exec_ret_of_pos (h : 0 < s.sp.val) :
    exec .ret s = complete ((s.setStack s.stack ⟨s.sp.val - 1, by omega⟩).setPc s.stack[s.sp.val - 1]) := by
  simp [exec, execRet, State.pop, h]

theorem exec_ret_of_empty (h : ¬ 0 < s.sp.val) :
    exec .ret s = .next (raiseFault .stackUnderflow (encode .ret) s) := by
  simp only [exec, execRet, State.pop, dif_neg h]

theorem exec_call_of_room {addr : Word} (h : s.sp.val < 16) :
    exec (.call addr) s =
      complete ((s.setStack (s.stack.set s.sp.val s.pc h) ⟨s.sp.val + 1, by omega⟩).setPc addr) := by
  simp only [exec, execCall, State.push, dif_pos h]

theorem exec_call_of_full {addr : Word} (h : ¬ s.sp.val < 16) :
    exec (.call addr) s = .next (raiseFault .stackOverflow (encode (.call addr)) s) := by
  simp only [exec, execCall, State.push, dif_neg h]

end Sys2Proof.Machine
end

section
/-! PROOF. MODE is read by no instruction (R33). -/

namespace Sys2Proof.Machine

variable (s : State) (m : Mode)

theorem skipIf_setMode (b : Bool) : skipIf b (s.setMode m) = skipIf b s := by
  cases b <;> rfl

theorem complete_setFlagThenReg_setMode (f : Option Byte) (x : RegIdx) (b : Byte) :
    complete ((s.setMode m).setFlagThenReg f x b) = complete (s.setFlagThenReg f x b) := by
  cases f <;> rfl

/-- Completion, await and a raised fault overwrite MODE, and nothing before them reads it. -/
theorem exec_setMode (i : Instr) : exec i (s.setMode m) = exec i s := by
  cases i
  case ret =>
    by_cases h : 0 < s.sp.val
    · rw [exec_ret_of_pos h, exec_ret_of_pos (s := s.setMode m) h]; rfl
    · rw [exec_ret_of_empty h, exec_ret_of_empty (s := s.setMode m) h]; rfl
  case call =>
    by_cases h : s.sp.val < 16
    · rw [exec_call_of_room h, exec_call_of_room (s := s.setMode m) h]; rfl
    · rw [exec_call_of_full h, exec_call_of_full (s := s.setMode m) h]; rfl
  case seImm | sneImm | seReg | sneReg | skp | sknp => exact skipIf_setMode s m _
  case subReg => exact complete_setFlagThenReg_setMode s m _ _ _
  all_goals rfl

end Sys2Proof.Machine
end

section
/-! PROOF. The stack is read by 2NNN and 00EE only, and no entry at or above SP by these (R37). -/

namespace Sys2Proof.Machine

open Sys2Proof.Spec

section
variable (s : State) (stk : Vector Word 16) (d : Fin 17)

theorem skipIf_setStack (b : Bool) : skipIf b (s.setStack stk d) = mapNext (·.setStack stk d) (skipIf b s) := by
  cases b <;> rfl

theorem complete_setFlagThenReg_setStack (f : Option Byte) (x : RegIdx) (b : Byte) :
    complete ((s.setStack stk d).setFlagThenReg f x b) =
      mapNext (·.setStack stk d) (complete (s.setFlagThenReg f x b)) := by
  cases f <;> rfl

theorem lowestHeld_setStack : (s.setStack stk d).lowestHeld = s.lowestHeld := rfl

/-- An access from I fails or not whatever the stack holds. -/
theorem guardData_setStack (i : Instr) {k k' : Result} (hk : k' = mapNext (·.setStack stk d) k) :
    guardData i (s.setStack stk d) k' = mapNext (·.setStack stk d) (guardData i s k) := by
  simp only [guardData, guardAccess, setStack_env, setStack_i]
  split
  · rfl
  · exact hk

/-- An instruction but 2NNN and 00EE neither reads nor writes S and SP. -/
theorem exec_setStack {i : Instr} (hi : i.mnemonic ∉ ["2NNN", "00EE"]) :
    exec i (s.setStack stk d) = mapNext (·.setStack stk d) (exec i s) := by
  cases i
  case ret | call => exact absurd (by simp [Instr.mnemonic]) hi
  case seImm | sneImm | seReg | sneReg | skp | sknp => exact skipIf_setStack s stk d _
  case subReg => exact complete_setFlagThenReg_setStack s stk d _ _ _
  case ldKey =>
    simp only [exec, execLdKey, lowestHeld_setStack]
    cases s.lowestHeld <;> rfl
  case drw | ldBcd | storeRegs | loadRegs => exact guardData_setStack s stk d _ rfl
  all_goals rfl

end

/-- An instruction but 2NNN and 00EE leaves S and SP (R27). -/
theorem exec_stack_of_not_mem {i : Instr} {s t : State} (h : exec i s = .next t) (hi : i.mnemonic ∉ ["2NNN", "00EE"]) :
    t.stack = s.stack ∧ t.sp = s.sp := by
  cases exec_effect h
  case callOrReturn hm => exact absurd hm hi
  all_goals exact ⟨rfl, rfl⟩

/-! An instruction in `s` and in the state with the stack `stk`, equal to that of `s` below SP. -/

section
variable {s t : State} {stk : Vector Word 16} (hlive : ∀ k (hk : k < 16), k < s.sp.val → stk[k] = s.stack[k])
include hlive

theorem exec_stale_of_not_mem {i : Instr} (hi : i.mnemonic ∉ ["2NNN", "00EE"]) (h : exec i s = .next t) :
    ∃ u, exec i (s.setStack stk s.sp) = .next u ∧ SameButStale t u := by
  obtain ⟨hstack, hsp⟩ := exec_stack_of_not_mem h hi
  refine ⟨t.setStack stk t.sp, ?_, rfl, ?_⟩
  · rw [exec_setStack s stk s.sp hi, h, hsp]; rfl
  · rw [hstack, hsp]; exact hlive

/-- 00EE reads S[SP − 1], a live entry (R161). -/
theorem exec_ret_stale (h : exec .ret s = .next t) :
    ∃ u, exec .ret (s.setStack stk s.sp) = .next u ∧ SameButStale t u := by
  by_cases hp : 0 < s.sp.val
  · have htop : stk[s.sp.val - 1] = s.stack[s.sp.val - 1] := hlive _ (by omega) (by omega)
    rw [exec_ret_of_pos hp] at h
    rw [exec_ret_of_pos (s := s.setStack stk s.sp) hp]
    cases h
    refine ⟨_, rfl, ?_, fun k hk hlt => hlive k hk (by simp at hlt; omega)⟩
    simp only [setStack_stack, setStack_sp, htop]
    rfl
  · rw [exec_ret_of_empty hp] at h
    rw [exec_ret_of_empty (s := s.setStack stk s.sp) hp]
    cases h
    exact ⟨_, rfl, rfl, hlive⟩

/-- 2NNN writes S[SP], so that the entry is live in both (R160). -/
theorem exec_call_stale {addr : Word} (h : exec (.call addr) s = .next t) :
    ∃ u, exec (.call addr) (s.setStack stk s.sp) = .next u ∧ SameButStale t u := by
  by_cases hp : s.sp.val < 16
  · rw [exec_call_of_room hp] at h
    rw [exec_call_of_room (s := s.setStack stk s.sp) hp]
    cases h
    refine ⟨_, rfl, rfl, fun k hk hlt => ?_⟩
    simp only [setStack_sp, setPc_sp, setMode_sp] at hlt
    simp only [setStack_stack, setPc_stack, setMode_stack, setStack_sp, setStack_pc, Vector.getElem_set]
    split
    · rfl
    · exact hlive k hk (by omega)
  · rw [exec_call_of_full hp] at h
    rw [exec_call_of_full (s := s.setStack stk s.sp) hp]
    cases h
    exact ⟨_, rfl, rfl, hlive⟩

end

end Sys2Proof.Machine
end

section
/-! PROOF. What a STEP can do (R109 to R116), and what it leaves when it waits for a key (R222). -/

namespace Sys2Proof.Machine

open Sys2Proof.Spec

variable {rnd : Byte} {s t : State}

/-- Everything a STEP of a core that is not halted can do: its fetch fails, its word is illegal, or an instruction runs. -/
theorem cycle_next_cases (h : cycle rnd s = .next t) :
    (s.env.params.addrOob = .fault ∧ 4096 < s.pc.toNat + 2 ∧
      t = raiseFetchFault (max s.pc.toNat 4096) (s.latchRnd rnd)) ∨
    (decode s.fetchWord = .error (.unknownOpcode s.fetchWord) ∧
      t = raiseFault .unknownOpcode s.fetchWord (s.latchRnd rnd).advance) ∨
    ∃ i, decode s.fetchWord = .ok i ∧ exec i (s.latchRnd rnd).advance = .next t := by
  rw [cycle] at h
  rcases guardAccess_cases s s.pc.toNat 2 _ _ with ⟨-, hg⟩ | ⟨hp, hlt, -, hg⟩ <;> rw [hg] at h
  · rw [decodeExecute] at h
    cases hd : decode s.fetchWord with
    | ok i => rw [hd] at h; exact .inr (.inr ⟨i, rfl, h⟩)
    | error e =>
      rw [hd] at h
      cases h
      exact .inr (.inl ⟨by rw [decode_error hd], rfl⟩)
  · cases h; exact .inl ⟨hp, hlt, rfl⟩

theorem stepEffect_of_halted (h : s.fault.kind ≠ .noFault) : stepEffect rnd s = .next s := by
  rw [stepEffect, if_pos (by rwa [halted_iff])]

theorem stepEffect_of_running (h : s.fault.kind = .noFault) : stepEffect rnd s = cycle rnd s := by
  rw [stepEffect, if_neg (by rw [halted_iff]; exact not_not_intro h)]

/-- The fetched word depends on pc, memory and the font alone (R110). -/
theorem fetchWord_congr (hpc : t.pc = s.pc) (hmem : t.mem = s.mem) (hp : t.env.params = s.env.params) :
    t.fetchWord = s.fetchWord := by
  simp only [State.fetchWord, State.memRead, hpc, cell_congr hmem hp]

/-- An instruction that leaves MODE = AWAITING-KEY is an FX0A, and steps pc back (R117, R222). -/
theorem exec_awaitingKey {i : Instr} (h : exec i s = .next t) (hm : t.mode = .awaitingKey) :
    ∃ x, i = .ldKey x ∧ t = s.refetch.setMode .awaitingKey := by
  rcases exec_next_cases h with ⟨-, hr⟩ | hx | ⟨-, a, -, rfl⟩ | ⟨-, -, rfl⟩ | ⟨-, -, -, rfl⟩
  · rw [hr] at hm; cases hm
  · exact hx
  all_goals cases hm

/-- The step back of a blocked FX0A undoes the fetch advance (R111, R222). -/
theorem refetch_advance : s.advance.refetch = s := by
  simp [State.refetch, State.advance, State.setPc]

end Sys2Proof.Machine
end

section
/-! PROOF. The invariant (R34, R59, R241, R245): it holds after RESET, and every transaction keeps it. -/

namespace Sys2Proof.Machine

open Sys2Proof.Spec

variable {s t : State}

theorem resetEffect_inv (s : State) : (resetEffect s).Inv where
  memWf := Memory.wf_nil _
  latch := ⟨rfl, rfl⟩
  precise h := absurd rfl h

/-- A raised fault meets the invariant when its record is true and its kind fits SP and the parameter (R241). -/
theorem raiseFault_inv {k : FaultKind} {w : Word} (hm : MemoryOk s)
    (hn : FaultLatch.names { kind := k, pc := s.pc - 2, opcode := w })
    (ho : k = .stackOverflow → s.sp = 16) (hu : k = .stackUnderflow → s.sp = 0)
    (hp : ∀ v, k = .programError v → s.env.params.addrOob = .fault) : (raiseFault k w s).Inv where
  memWf := hm
  latch := hn
  precise _ := ⟨rfl, .inl (BitVec.sub_add_cancel _ _).symm, ho, hu, hp⟩

/-- A failed fetch meets the invariant: its record is at pc, and names pc or pc + 1 (R51, log 20). -/
theorem raiseFetchFault_inv (hm : MemoryOk s) (hp : s.env.params.addrOob = .fault) (hlt : 4096 < s.pc.toNat + 2) :
    (raiseFetchFault (max s.pc.toNat 4096) s).Inv := by
  have hpc := s.pc.isLt
  have hv : max s.pc.toNat 4096 = s.pc.toNat ∨ max s.pc.toNat 4096 = s.pc.toNat + 1 := by omega
  exact {
    memWf := hm
    latch := ⟨by omega, by omega, hv.imp id .inl⟩
    precise := fun _ => ⟨rfl, .inr ⟨rfl, _, rfl, hv⟩, nofun, nofun, fun _ _ => hp⟩ }

/-- A decoded instruction, run with no fault latched, ends in the invariant. -/
theorem exec_inv {i : Instr} {w : Word} (hm : MemoryOk s) (hn : s.fault.names) (hk : s.fault.kind = .noFault)
    (hd : decode w = .ok i) (h : exec i s = .next t) : t.Inv := by
  have hdec : decode (encode i) = .ok i := by rw [encode_of_decode hd, hd]
  have hmt := exec_memoryOk hm h
  rcases exec_next_cases h with ⟨hf, -⟩ | ⟨x, -, rfl⟩ | ⟨hsp, a, rfl, rfl⟩ | ⟨hsp, rfl, rfl⟩ | ⟨hp, -, hc, rfl⟩
  · exact ⟨hmt, hf ▸ hn, fun hfail => absurd (hf ▸ hk) hfail⟩
  · exact ⟨hmt, hn, fun hfail => absurd hk hfail⟩
  · exact raiseFault_inv hm ⟨a, hdec⟩ (fun _ => hsp) nofun nofun
  · exact raiseFault_inv hm hdec nofun (fun _ => hsp) nofun
  · have hi := s.i.isLt
    exact raiseFault_inv hm ⟨by omega, by omega, .inr (.inr ⟨i, hdec, hc⟩)⟩ nofun nofun (fun _ _ => hp)

theorem stepEffect_inv {rnd : Byte} (hs : s.Inv) (h : stepEffect rnd s = .next t) : t.Inv := by
  by_cases hk : s.fault.kind = .noFault
  · rw [stepEffect_of_running hk] at h
    rcases cycle_next_cases h with ⟨hp, hlt, rfl⟩ | ⟨hd, rfl⟩ | ⟨i, hd, he⟩
    · exact raiseFetchFault_inv (s := s.latchRnd rnd) hs.memWf hp hlt
    · exact raiseFault_inv hs.memWf hd nofun nofun nofun
    · exact exec_inv (s := (s.latchRnd rnd).advance) hs.memWf hs.latch hk hd he
  · rw [stepEffect_of_halted hk] at h
    cases h
    exact hs

/-- LOAD keeps the canonical form of memory (R59, R66). -/
theorem loadEffect_inv (hs : s.Inv) (image : List Byte) : (loadEffect image s).Inv := by
  rw [loadEffect]
  split
  · exact ⟨Memory.writeBytes_wf _ _ hs.memWf _ image, hs.latch, hs.precise⟩
  · exact hs

/-- Every transaction of the host keeps the invariant (R100). -/
theorem transact_inv {tr : Transaction} (hs : s.Inv) (h : transact tr s = .next t) : t.Inv := by
  cases tr with
  | reset => cases h; exact resetEffect_inv s
  | load image => cases h; exact loadEffect_inv hs image
  | step rnd => exact stepEffect_inv hs h
  | setKey | tick | clearRedraw => cases h; exact ⟨hs.memWf, hs.latch, hs.precise⟩
  | readFb | readDt | readSt | readStatus => cases h; exact hs

/-- Taking the next transaction touches neither memory nor FAULT. -/
theorem takeTransaction_inv (hs : s.Inv) : s.takeTransaction.Inv := by
  rw [State.takeTransaction]
  split <;> exact ⟨hs.memWf, hs.latch, hs.precise⟩

end Sys2Proof.Machine
end

section
/-! PROOF. The statements of the state's family, each from the lemmas above. -/

namespace Sys2Proof.Machine

open Sys2Proof.Spec

/-- Settles O54: RESET leaves the invariant in whatever state it is performed, the reset state too. -/
theorem resetStateHoldsTheInvariant : Obligations.ResetStateHoldsTheInvariant := resetEffect_inv State.reset

/-- Settles O53: taking the next transaction keeps the invariant, and so does performing it. -/
theorem everyStepKeepsTheInvariant : Obligations.EveryStepKeepsTheInvariant := by
  intro s t hs h
  rw [step, performNext] at h
  split at h
  · cases h
  · exact transact_inv (takeTransaction_inv hs) h

/-- Settles O14: only a blocked FX0A ends so, and its step back undoes the fetch advance. -/
theorem awaitingKeyRefetchesTheSameInstruction : Obligations.AwaitingKeyRefetchesTheSameInstruction := by
  intro rnd s t hf h hm
  rw [transact, stepEffect_of_running hf] at h
  rcases cycle_next_cases h with ⟨-, -, rfl⟩ | ⟨-, rfl⟩ | ⟨i, hd, he⟩
  · cases hm
  · cases hm
  · obtain ⟨x, rfl, rfl⟩ := exec_awaitingKey he hm
    rw [refetch_advance]
    exact ⟨rfl, x, (congrArg decode (fetchWord_congr rfl rfl rfl)).trans hd⟩

/-- Settles O24, clause by clause: who writes VF, and what each flag writer leaves there. -/
theorem flagRegisterHasSixSideEffectWriters : Obligations.FlagRegisterHasSixSideEffectWriters := by
  intro i s t h
  refine ⟨exec_flagReg_writer h, exec_flag_of_always h, fun hi hf => ?_, ?_⟩
  · cases i <;> simp [Instr.mnemonic] at hi
    exact exec_drw_flag h hf
  · rintro x y rfl hx
    exact exec_subReg_flag h hx

/-- Settles O49: every clause is read off from the effects an instruction can have. -/
theorem eachPieceHasItsWriters : Obligations.EachPieceHasItsWriters := by
  intro i s
  obtain ⟨t, ht⟩ := exec_total i s
  refine ⟨t, ht, ?_⟩
  cases exec_effect ht
  case registers x bytes hi hl => subst hi; simp [Instr.mnemonic]
  case register _ _ hi _ | flagThenRegister _ _ _ hi | jump _ hi | callOrReturn _ _ _ hi => simp at hi ⊢; tauto
  all_goals simp [*]

/-- Settles O50: completion, await and a raised fault overwrite MODE, and nothing before them reads it. -/
theorem modeChangesNoMeaning : Obligations.ModeChangesNoMeaning := fun i s m => exec_setMode s m i

/-- Settles O52: 00EE reads the entry below SP, 2NNN writes the one at SP, and no other instruction reads the stack. -/
theorem staleStackEntriesAreNeverRead : Obligations.StaleStackEntriesAreNeverRead := by
  rintro i s₁ s₂ t₁ ⟨hs, hlive⟩ h
  have hs₂ : s₂ = s₁.setStack s₂.stack s₁.sp := hs
  rw [hs₂]
  by_cases hi : i.mnemonic ∈ ["2NNN", "00EE"]
  · cases i <;> simp [Instr.mnemonic] at hi
    · exact exec_ret_stale hlive h
    · exact exec_call_stale hlive h
  · exact exec_stale_of_not_mem hlive hi h

end Sys2Proof.Machine
end

section
/-! PROOF. The address unit (R51): the accesses it lets through, and the stop of the ones it refuses. -/

namespace Sys2Proof.Machine

open Sys2Proof.Spec

variable {s t : State}

theorem firstOutOfRange_of_accessOk {base n : Nat} (h : AccessOk s base n) :
    firstOutOfRange s.env.params.addrOob base n = none := by
  cases hp : s.env.params.addrOob with
  | wrap => exact firstOutOfRange_wrap base n
  | fault =>
    have hok : base + n ≤ 4096 ∨ n = 0 := (h.resolve_left (by simp [hp])).symm
    rw [firstOutOfRange_fault, if_pos hok]

/-- Under ADDR_OOB = fault the guard stops at the first address value of 4096 or more (R51). -/
theorem guardAccess_of_outside {base n : Nat} (hp : s.env.params.addrOob = .fault) (h0 : 0 < n)
    (hlt : 4096 < base + n) (stop : Nat → State) (k : Result) :
    guardAccess s base n stop k = .next (stop (max base 4096)) := by
  rw [guardAccess, hp, firstOutOfRange_fault, if_neg (by omega)]

theorem raiseFault_latchesOnly (k : FaultKind) (w : Word) (s : State) :
    LatchesOnly { kind := k, pc := s.pc - 2, opcode := w } s (raiseFault k w s) := by
  simp [LatchesOnly]

/-- An instruction whose effect is guarded raises ProgramError when an access from I is past cell 4095 (R51, R241). -/
theorem raisesProgramError_of_guardData {i : Instr} {k : Result} (hx : exec i s = guardData i s k)
    (hp : s.env.params.addrOob = .fault) (h0 : 0 < dataCells i) (hlt : 4096 < s.i.toNat + dataCells i) :
    RaisesProgramError i s :=
  ⟨_, hx.trans (guardAccess_of_outside hp h0 hlt _ _), rfl, raiseFault_latchesOnly _ _ s⟩

/-- A STEP whose fetch reads past cell 4095 under ADDR_OOB = fault decodes nothing (R51, R110). -/
theorem cycle_of_outside {rnd : Byte} (hp : s.env.params.addrOob = .fault) (hlt : 4096 < s.pc.toNat + 2) :
    cycle rnd s = .next (raiseFetchFault (max s.pc.toNat 4096) (s.latchRnd rnd)) :=
  guardAccess_of_outside hp (by decide) hlt _ _

/-- The record of a failed fetch is at pc, and the word in it is drawn from the free ones (R51, log 20). -/
theorem raiseFetchFault_latchesOnly (v : Nat) (s : State) :
    LatchesOnly { kind := .programError v, pc := s.pc, opcode := (raiseFetchFault v s).fault.opcode }
      { s with env := { s.env with draws := s.env.draws + 1 } } (raiseFetchFault v s) := by
  simp [LatchesOnly]

/-- A STEP that leaves the core halted returns FAULT's fields (R105). -/
theorem response_step_of_failed {rnd : Byte} (h : t.failed) :
    response (.step rnd) t = .faulted t.fault.kind t.fault.pc t.fault.opcode :=
  if_pos (halted_iff t |>.mpr h)

end Sys2Proof.Machine
end

section
/-! PROOF. What the fetch reads, what FX55 stores, and what LOAD installs (R53, R185, R66). -/

namespace Sys2Proof.Machine

open Sys2Proof.Spec

variable {s : State}

/-- The fetched word is big-endian (R53). -/
theorem fetchWord_toNat (s : State) :
    s.fetchWord.toNat =
      256 * (s.cell (addrOf s.pc.toNat)).toNat + (s.cell (addrOf (s.pc.toNat + 1))).toNat := by
  rw [State.fetchWord, joinBytes_toNat, Nat.mul_comm]
  rfl

/-- FX55 completes with its store when the address unit refuses none of its accesses (R185). -/
theorem exec_storeRegs_of_accessOk {x : RegIdx} (h : AccessOk s s.i.toNat (x.val + 1)) :
    exec (.storeRegs x) s = .next ((s.memWriteBytes s.i.toNat (s.regsUpTo x)).setMode .running) :=
  guardData_of_none (firstOutOfRange_of_accessOk h) _

/-- The store of V[0] to V[x] leaves V[r] in the cell r after the base (R185). -/
theorem memWriteBytes_regsUpTo_cell (hm : MemoryOk s) (base : Nat) {x r : RegIdx} (hr : r ≤ x) :
    (s.memWriteBytes base (s.regsUpTo x)).cell (addrOf (base + r.val)) = s.reg r := by
  have hlen : (s.regsUpTo x).length ≤ 4096 := by rw [regsUpTo_length]; omega
  have hmem : r.val < (s.regsUpTo x).length := by rw [regsUpTo_length]; exact Nat.lt_succ_of_le hr
  rw [memWriteBytes_cell_inside s hm base _ hlen r.val hmem, regsUpTo_get s x r.val hmem r.isLt]

theorem loadEffect_of_fits {image : List Byte} (h : image.length ≤ 3584) :
    loadEffect image s = s.memWriteBytes 0x200 image := if_pos h

theorem loadEffect_of_tooLong {image : List Byte} (h : 3584 < image.length) : loadEffect image s = s :=
  if_neg (Nat.not_le_of_lt h)

/-- An image that fits ends at or below cell 4095, so that its bytes are in their cells without a wrap (R66). -/
theorem loadEffect_cell_inside {image : List Byte} (hm : MemoryOk s) (h : image.length ≤ 3584) (k : Fin image.length) :
    (loadEffect image s).cell (0x200 + k.val) = image[k] := by
  have hcell := memWriteBytes_cell_inside s hm 0x200 image (by omega) k.val k.isLt
  rwa [addrOf_of_lt (by omega), ← loadEffect_of_fits h] at hcell

theorem loadEffect_cell_other {image : List Byte} (hm : MemoryOk s) (h : image.length ≤ 3584) {a : Nat}
    (ha : a < 0x200 ∨ 0x200 + image.length ≤ a) : (loadEffect image s).cell a = s.cell a := by
  rw [loadEffect_of_fits h]
  refine memWriteBytes_cell_other s hm 0x200 image a fun k hk => ?_
  rw [addrOf_of_lt (by omega)]
  omega

end Sys2Proof.Machine
end

section
/-! PROOF. The statements of the memory's family, each from the lemmas above. -/

namespace Sys2Proof.Machine

open Sys2Proof.Spec

/-- Settles O7: the word is its two bytes, and the address unit reduces both address values modulo 4096. -/
theorem fetchReadsTwoBytesBigEndian : Obligations.FetchReadsTwoBytesBigEndian := fetchWord_toNat

/-- Settles O41: the four instructions with accesses from I stop at their guard, and a STEP at the guard of its fetch. -/
theorem outOfRangeAccessStopsUnderFault : Obligations.OutOfRangeAccessStopsUnderFault := by
  intro s hp
  refine ⟨fun x hlt => ?_, fun x hlt => ⟨?_, ?_⟩, fun x y rows h0 hlt => ?_, fun rnd hf hlt => ?_⟩
  · exact raisesProgramError_of_guardData rfl hp (Nat.succ_pos 2) hlt
  · exact raisesProgramError_of_guardData rfl hp (Nat.succ_pos x) hlt
  · exact raisesProgramError_of_guardData rfl hp (Nat.succ_pos x) hlt
  · exact raisesProgramError_of_guardData rfl hp h0 hlt
  · refine ⟨_, (stepEffect_of_running hf).trans (cycle_of_outside hp hlt), rfl, ?_, response_step_of_failed nofun⟩
    exact raiseFetchFault_latchesOnly _ (s.latchRnd rnd)

/-- Settles O42: FX55 leaves V0 and V1 in the two cells that the fetch at pc reads. -/
theorem fetchSeesTheStoreBeforeIt : Obligations.FetchSeesTheStoreBeforeIt := by
  intro s hm hok hi
  refine ⟨_, exec_storeRegs_of_accessOk (x := 1) (hi ▸ hok), rfl, ?_⟩
  have h0 := memWriteBytes_regsUpTo_cell hm s.i.toNat (x := 1) (r := 0) (by decide)
  have h1 := memWriteBytes_regsUpTo_cell hm s.i.toNat (x := 1) (r := 1) (by decide)
  rw [fetchWord_toNat, setMode_cell, setMode_cell, setMode_pc, memWriteBytes_pc, ← hi, ← h0, ← h1]
  rfl

/-- Settles O57: an image of at most 3584 bytes is written from cell 0x200 on, a longer one is refused. -/
theorem loadInstallsTheImageOrNothing : Obligations.LoadInstallsTheImageOrNothing := by
  intro s image hm
  refine ⟨loadEffect image s, rfl, fun hfit => ⟨?_, if_pos hfit, ?_, ?_⟩, fun hlong => ⟨?_, ?_⟩⟩
  · rw [loadEffect_of_fits hfit]; rfl
  · exact loadEffect_cell_inside hm hfit
  · exact fun a => loadEffect_cell_other hm hfit
  · exact loadEffect_of_tooLong hlong
  · exact if_neg (Nat.not_le_of_lt hlong)

end Sys2Proof.Machine
end

section
/-! PROOF. Every format reads back the operands it was built from, so the decoder undoes the encoder (R82 to R86). -/

namespace Sys2Proof

variable {w : Word} {i : Instr}

/-- A row count that fits N is read back whole (R83). -/
theorem nField_formatR_rows (op : BitVec 4) (x y : RegIdx) {rows : Nat} (h : rowsFit rows = true) :
    nField (formatR op x y (BitVec.ofNat 4 rows)) = rows := by
  rw [nField_formatR, BitVec.toNat_ofNat]
  exact Nat.mod_eq_of_lt (of_decide_eq_true h)

/-- Decoding the word of a well-formed instruction, by the operands and the dispatch its format has (R82, R85). -/
theorem decode_encode (h : i.wellFormed = true) : decode (encode i) = .ok i := by
  cases i with
  | cls | ret => rfl
  | jp | call | ldI | jpV0 => simp [encode, decode, nnnField_formatA _ _ h]
  | seImm | sneImm | ldImm | addImm | rnd | seReg | sneReg => simp [encode, decode]
  | ldReg | orReg | andReg | xorReg | addReg | subReg | shr | subnReg | shl => simp [encode, decode, decode8]
  | drw x y => simp [encode, decode, nField_formatR_rows _ x y h]
  | skp | sknp => simp [encode, decode, decodeE]
  | ldFromDt | ldKey | ldDt | ldSt | addI | ldFont | ldBcd | storeRegs | loadRegs => simp [encode, decode, decodeF]

/-! The operands the decoder reads fit their fields (R83). -/

theorem addrFits_nnnField (w : Word) : addrFits (nnnField w) = true := by
  rw [addrFits, nnnField_toNat]
  exact decide_eq_true (Nat.mod_lt _ (by decide))

theorem rowsFit_nField (w : Word) : rowsFit (nField w) = true := by
  rw [rowsFit, nField_eq]
  exact decide_eq_true (Nat.mod_lt _ (by decide))

theorem wellFormed_of_decode8 (h : decode8 w = .ok i) : i.wellFormed = true := by
  unfold decode8 at h
  split at h <;> cases h <;> rfl

theorem wellFormed_of_decodeE (h : decodeE w = .ok i) : i.wellFormed = true := by
  unfold decodeE at h
  split at h <;> cases h <;> rfl

theorem wellFormed_of_decodeF (h : decodeF w = .ok i) : i.wellFormed = true := by
  unfold decodeF at h
  split at h <;> cases h <;> rfl

theorem wellFormed_of_decode (h : decode w = .ok i) : i.wellFormed = true := by
  unfold decode at h
  split at h
  case h_1 | h_6 | h_10 => split_ifs at h <;> cases h <;> rfl
  case h_9 => exact wellFormed_of_decode8 h
  case h_15 => exact wellFormed_of_decodeE h
  case h_16 => exact wellFormed_of_decodeF h
  case h_2 | h_3 | h_11 | h_12 => cases h; exact addrFits_nnnField w
  case h_4 | h_5 | h_7 | h_8 | h_13 => cases h; rfl
  case h_14 => cases h; exact rowsFit_nField w
  case h_17 => cases h

end Sys2Proof
end

section
/-! PROOF. The rows of the opcode map (R86): each instruction's word has one, and no word has two. -/

namespace Sys2Proof.Laws.EncodesItsRow

/-- The word of every instruction matches the row of its mnemonic. -/
theorem all : ∀ i : Instr, Statement i
  | .cls => cls | .ret => ret | .jp a => jp a | .call a => call a
  | .seImm x nn => seImm x nn | .sneImm x nn => sneImm x nn | .seReg x y => seReg x y | .sneReg x y => sneReg x y
  | .ldImm x nn => ldImm x nn | .addImm x nn => addImm x nn | .ldReg x y => ldReg x y | .orReg x y => orReg x y
  | .andReg x y => andReg x y | .xorReg x y => xorReg x y | .addReg x y => addReg x y | .subReg x y => subReg x y
  | .shr x y => shr x y | .subnReg x y => subnReg x y | .shl x y => shl x y
  | .ldI a => ldI a | .jpV0 a => jpV0 a | .rnd x nn => rnd x nn | .drw x y n => drw x y n
  | .skp x => skp x | .sknp x => sknp x | .ldFromDt x => ldFromDt x | .ldKey x => ldKey x
  | .ldDt x => ldDt x | .ldSt x => ldSt x | .addI x => addI x | .ldFont x => ldFont x
  | .ldBcd x => ldBcd x | .storeRegs x => storeRegs x | .loadRegs x => loadRegs x

end Sys2Proof.Laws.EncodesItsRow

namespace Sys2Proof

variable {w : Word} {i : Instr}

/-- A word that decodes is its instruction's encoding, so it matches the instruction's row. -/
theorem exists_row_of_decode (h : decode w = .ok i) :
    ∃ r ∈ opcodeTable, r.matchesWord w = true ∧ r.mnemonic = i.mnemonic := by
  obtain ⟨r, hr, hname, hm⟩ := Laws.EncodesItsRow.all i
  exact ⟨r, hr, encode_of_decode h ▸ hm, hname⟩

/-- Two rows that one word matches agree on the bits that both look at. -/
theorem pattern_and_mask_comm_of_matchesWord {r q : OpcodeRow} (hr : r.matchesWord w = true)
    (hq : q.matchesWord w = true) : r.pattern &&& q.mask = q.pattern &&& r.mask := by
  simp only [OpcodeRow.matchesWord, decide_eq_true_eq] at hr hq
  rw [← hr, ← hq, BitVec.and_assoc, BitVec.and_assoc, BitVec.and_comm r.mask]

/-- Two different rows of the map disagree on a bit that both look at. -/
theorem eq_of_pattern_and_mask_comm :
    ∀ r ∈ opcodeTable, ∀ q ∈ opcodeTable, r.pattern &&& q.mask = q.pattern &&& r.mask → r = q := by
  decide

end Sys2Proof
end

section
/-! PROOF. What the three families with a function nibble or byte reject (R85, R87). -/

namespace Sys2Proof

variable {w : Word}

theorem decode8_rejects_iff :
    decode8 w = .error (.unknownOpcode w) ↔ w.toNat % 16 ∈ [0x8, 0x9, 0xA, 0xB, 0xC, 0xD, 0xF] := by
  have hlt : w.toNat % 16 < 16 := Nat.mod_lt _ (by decide)
  rw [decode8, nField_eq]
  generalize w.toNat % 16 = n at hlt
  interval_cases n <;> simp

theorem decodeE_rejects_iff : decodeE w = .error (.unknownOpcode w) ↔ w.toNat % 256 ∉ [0x9E, 0xA1] := by
  rw [decodeE, nnField_toNat]
  split <;> simp_all

theorem decodeF_rejects_iff :
    decodeF w = .error (.unknownOpcode w) ↔
      w.toNat % 256 ∉ [0x07, 0x0A, 0x15, 0x18, 0x1E, 0x29, 0x33, 0x55, 0x65] := by
  rw [decodeF, nnField_toNat]
  split <;> simp_all

/-! A row's mask and pattern as the digits it fixes (R81, R86). -/

theorem and_F000_iff_digits {p : Word} (hp : p.toNat % 4096 = 0) :
    w &&& 0xF000#16 = p ↔ w.toNat / 4096 = p.toNat / 4096 := by
  rw [and_F000_iff]
  omega

theorem and_F00F_iff_digits {p : Word} (hp : p.toNat / 16 % 256 = 0) :
    w &&& 0xF00F#16 = p ↔ w.toNat / 4096 = p.toNat / 4096 ∧ w.toNat % 16 = p.toNat % 16 := by
  rw [and_F00F_iff]
  omega

theorem and_F0FF_iff_digits {p : Word} (hp : p.toNat / 256 % 16 = 0) :
    w &&& 0xF0FF#16 = p ↔ w.toNat / 4096 = p.toNat / 4096 ∧ w.toNat % 256 = p.toNat % 256 := by
  rw [and_F0FF_iff]
  omega

end Sys2Proof
end

section
/-! PROOF. The statements of the encoding's family, each from the lemmas above. -/

namespace Sys2Proof

/-- Settles O1: every format reads back the operands it was built from. -/
theorem encodeThenDecodeGivesTheInstruction : Obligations.EncodeThenDecodeGivesTheInstruction :=
  fun _ => decode_encode

/-- Settles O2: the operands read fit their fields, and the format rebuilt from them is the word. -/
theorem decodeThenEncodeGivesTheWord : Obligations.DecodeThenEncodeGivesTheWord :=
  fun _ _ h => ⟨wellFormed_of_decode h, encode_of_decode h⟩

/-- Settles O4: rows that a word matches agree on their common bits, and no two rows of the map do. -/
theorem opcodeRowsAreDisjoint : Obligations.OpcodeRowsAreDisjoint :=
  fun _ r hr q hq hrw hqw => eq_of_pattern_and_mask_comm r hr q hq (pattern_and_mask_comm_of_matchesWord hrw hqw)

/-- Settles O5: a family of one full pattern rejects nothing, and each of the six others rejects by its second dispatch. -/
theorem illegalWordsAreThoseOfTheSixFamilies : Obligations.IllegalWordsAreThoseOfTheSixFamilies := by
  intro w
  have hlt : w.toNat / 4096 < 16 := Nat.div_lt_of_lt_mul w.isLt
  rw [decode, opField_eq]
  split
  case h_1 hop =>
    simp only [← BitVec.toNat_inj]
    split_ifs <;> simp_all
  case h_6 hop | h_10 hop => rw [nField_eq]; split <;> simp [*]
  case h_9 hop => simp [hop, decode8_rejects_iff]
  case h_15 hop => simp [hop, decodeE_rejects_iff]
  case h_16 hop => simp [hop, decodeF_rejects_iff]
  case h_17 => interval_cases w.toNat / 4096 <;> contradiction
  all_goals simp [*]

/-- A row fixes the digits its family dispatches on, so that a word it matches is in none of the six illegal families. -/
theorem decode_ne_error_of_matchesWord {w : Word} {r : OpcodeRow} (hr : r ∈ opcodeTable) (hm : r.matchesWord w = true) :
    decode w ≠ .error (.unknownOpcode w) := by
  rw [ne_eq, illegalWordsAreThoseOfTheSixFamilies w]
  fin_cases hr <;>
    simp [OpcodeRow.matchesWord, and_F000_iff_digits, and_F00F_iff_digits, and_F0FF_iff_digits, and_FFFF_iff] at hm <;>
    simp [hm]

/-- Settles O3: a word that decodes has its instruction's row; a word with a row is not illegal, so it decodes, and its
row is that instruction's since it has no second one. -/
theorem decoderAcceptsExactlyTheOpcodeMap : Obligations.DecoderAcceptsExactlyTheOpcodeMap := by
  intro w
  refine ⟨fun i => exists_row_of_decode, fun r hr hm => ?_, fun hnone => ?_⟩
  · cases hd : decode w with
    | error e => exact absurd (decode_error hd ▸ hd) (decode_ne_error_of_matchesWord hr hm)
    | ok i =>
      obtain ⟨q, hq, hqm, hqi⟩ := exists_row_of_decode hd
      exact ⟨i, rfl, opcodeRowsAreDisjoint w q hq r hr hqm hm ▸ hqi.symm⟩
  · cases hd : decode w with
    | error e => rw [decode_error hd]
    | ok i =>
      obtain ⟨r, hr, hm, -⟩ := exists_row_of_decode hd
      exact absurd hm (by simp [hnone r hr])

/-- Settles O6: each word decodes by evaluation. -/
theorem exampleWordsDecode : Obligations.ExampleWordsDecode := by
  unfold Obligations.ExampleWordsDecode
  decide

end Sys2Proof
end

section
/-! PROOF. The STEP's random byte is read by CXNN only (R104, R145). -/

namespace Sys2Proof.Machine

open Sys2Proof.Spec

variable (s : State) (rnd : Byte)

theorem skipIf_latchRnd (b : Bool) : skipIf b (s.latchRnd rnd) = mapNext (·.latchRnd rnd) (skipIf b s) := by
  cases b <;> rfl

theorem complete_setFlagThenReg_latchRnd (f : Option Byte) (x : RegIdx) (b : Byte) :
    complete ((s.latchRnd rnd).setFlagThenReg f x b) = mapNext (·.latchRnd rnd) (complete (s.setFlagThenReg f x b)) := by
  cases f <;> rfl

theorem lowestHeld_latchRnd : (s.latchRnd rnd).lowestHeld = s.lowestHeld := rfl

/-- An access from I fails or not whatever the random byte is. -/
theorem guardData_latchRnd (i : Instr) {k k' : Result} (hk : k' = mapNext (·.latchRnd rnd) k) :
    guardData i (s.latchRnd rnd) k' = mapNext (·.latchRnd rnd) (guardData i s k) := by
  simp only [guardData, guardAccess, latchRnd_env, latchRnd_i]
  split
  · rfl
  · exact hk

/-- An instruction but CXNN neither reads nor writes the random byte. -/
theorem exec_latchRnd {i : Instr} (hi : i.mnemonic ≠ "CXNN") :
    exec i (s.latchRnd rnd) = mapNext (·.latchRnd rnd) (exec i s) := by
  cases i
  case rnd => exact absurd rfl hi
  case ret =>
    by_cases h : 0 < s.sp.val
    · rw [exec_ret_of_pos h, exec_ret_of_pos (s := s.latchRnd rnd) h]; rfl
    · rw [exec_ret_of_empty h, exec_ret_of_empty (s := s.latchRnd rnd) h]; rfl
  case call =>
    by_cases h : s.sp.val < 16
    · rw [exec_call_of_room h, exec_call_of_room (s := s.latchRnd rnd) h]; rfl
    · rw [exec_call_of_full h, exec_call_of_full (s := s.latchRnd rnd) h]; rfl
  case seImm | sneImm | seReg | sneReg | skp | sknp => exact skipIf_latchRnd s rnd _
  case subReg => exact complete_setFlagThenReg_latchRnd s rnd _ _ _
  case ldKey =>
    simp only [exec, execLdKey, lowestHeld_latchRnd]
    cases s.lowestHeld <;> rfl
  case drw | ldBcd | storeRegs | loadRegs => exact guardData_latchRnd s rnd _ rfl
  all_goals rfl

end Sys2Proof.Machine
end

section
/-! PROOF. A STEP whose fetch is let through (R110 to R116), the machine's step by what the inbox holds (R100, R119), and what
every transaction leaves of the inbox. -/

namespace Sys2Proof.Machine

open Sys2Proof.Spec

variable {rnd : Byte} {s t : State}

/-! A STEP of a core that is not halted. -/

/-- When the address unit lets the fetch through, the fetched word is decoded and executed (R110 to R116). -/
theorem stepEffect_of_accessOk (hf : s.fault.kind = .noFault) (hok : AccessOk s s.pc.toNat 2) :
    stepEffect rnd s = decodeExecute s.fetchWord (s.latchRnd rnd).advance :=
  (stepEffect_of_running hf).trans (guardAccess_of_none (firstOutOfRange_of_accessOk hok) _ _)

theorem decodeExecute_of_ok {w : Word} {i : Instr} (hd : decode w = .ok i) : decodeExecute w s = exec i s := by
  simp only [decodeExecute, hd]

theorem decodeExecute_of_error {w : Word} {e : DecodeReject} (hd : decode w = .error e) :
    decodeExecute w s = .next (raiseFault .unknownOpcode w s) := by
  simp only [decodeExecute, hd]

/-- The instruction at pc runs with pc advanced and the random byte as input (R111, R116). -/
theorem stepEffect_of_decode {i : Instr} (hf : s.fault.kind = .noFault) (hok : AccessOk s s.pc.toNat 2)
    (hd : decode s.fetchWord = .ok i) : stepEffect rnd s = exec i (s.latchRnd rnd).advance :=
  (stepEffect_of_accessOk hf hok).trans (decodeExecute_of_ok hd)

/-- A fault raised after the fetch advance records the address of its own word (R111, R241). -/
theorem raiseFault_advance_latchesOnly (k : FaultKind) (w : Word) (s : State) :
    LatchesOnly { kind := k, pc := s.pc, opcode := w } s.advance (raiseFault k w s.advance) := by
  have hpc : s.advance.pc - 2 = s.pc := BitVec.add_sub_cancel s.pc 2
  exact hpc ▸ raiseFault_latchesOnly k w s.advance

/-- What a STEP returns, by the FAULT it leaves (R105). -/
theorem response_step_eq (rnd : Byte) (t : State) :
    response (.step rnd) t =
      if t.fault.kind = .noFault then .ok else .faulted t.fault.kind t.fault.pc t.fault.opcode := by
  split
  · exact if_neg (by rw [halted_iff]; exact not_not_intro ‹_›)
  · exact response_step_of_failed ‹_›

/-! The machine's step. -/

/-- A transaction in the inbox is performed, whatever FAULT holds (R102, R249). -/
theorem step_of_inbox_cons {tr : Transaction} {rest : List Transaction} (h : s.env.inbox = tr :: rest) :
    step s = transact tr { s with env := { s.env with inbox := rest } } := by
  simp [step, performNext, State.nextTransaction, State.takeTransaction, h]

/-- With nothing in the inbox a core that is not halted performs a STEP with a free byte (R104, log 5). -/
theorem step_of_inbox_nil (h : s.env.inbox = []) (hf : s.fault.kind = .noFault) :
    step s = stepEffect (Config.freeRnd s.env.draws) { s with env := { s.env with draws := s.env.draws + 1 } } := by
  simp [step, performNext, State.nextTransaction, State.takeTransaction, transact, State.halted, h, hf]

/-- With nothing in the inbox a halted core stops in a fault outcome (R119, log 4). -/
theorem step_of_inbox_nil_of_failed (h : s.env.inbox = []) (hf : s.failed) :
    step s = .fault (.faulted s.fault.kind s.fault.pc s.fault.opcode) := by
  simp [step, performNext, State.halted, h, hf]

/-! The host's other transactions. -/

/-- SET_KEY writes its one key (R103). -/
theorem setKeyEffect_keys_get (k j : KeyIdx) (p : Bool) (s : State) :
    (setKeyEffect k p s).keys[j] = if j = k then p else s.keys[j] := by
  simp only [setKeyEffect_keys, Fin.getElem_fin, Vector.getElem_set, Fin.ext_iff, eq_comm]

theorem loadEffect_env (image : List Byte) (s : State) : (loadEffect image s).env = s.env := by
  rw [loadEffect]
  split <;> rfl

/-! The inbox. -/

/-- No instruction touches the parameters or the inputs (R36). -/
theorem exec_env {i : Instr} (h : exec i s = .next t) : t.env = s.env := by
  cases exec_effect h <;> rfl

/-- A STEP answers a next state, and leaves the inbox to the host. -/
theorem stepEffect_total (rnd : Byte) (s : State) : ∃ t, stepEffect rnd s = .next t ∧ t.env.inbox = s.env.inbox := by
  by_cases hf : s.fault.kind = .noFault
  · rw [stepEffect_of_running hf, cycle]
    rcases guardAccess_cases s s.pc.toNat 2 _ _ with ⟨-, hg⟩ | ⟨-, -, -, hg⟩ <;> rw [hg]
    · cases hd : decode s.fetchWord with
      | ok i =>
        obtain ⟨t, ht⟩ := exec_total i (s.latchRnd rnd).advance
        exact ⟨t, (decodeExecute_of_ok hd).trans ht, by simp [exec_env ht]⟩
      | error e => exact ⟨_, decodeExecute_of_error hd, rfl⟩
    · exact ⟨_, rfl, rfl⟩
  · exact ⟨s, stepEffect_of_halted hf, rfl⟩

/-- Every transaction answers a next state, and leaves the inbox to the host (R100). -/
theorem transact_total (tr : Transaction) (s : State) :
    ∃ t, transact tr s = .next t ∧ t.env.inbox = s.env.inbox := by
  cases tr with
  | step rnd => exact stepEffect_total rnd s
  | load image => exact ⟨_, rfl, congrArg Env.inbox (loadEffect_env image s)⟩
  | reset | setKey | tick | readFb | clearRedraw | readDt | readSt | readStatus => exact ⟨_, rfl, rfl⟩

end Sys2Proof.Machine
end

section
/-! PROOF. The statements of the step cycle's family, each from the lemmas above. -/

namespace Sys2Proof.Machine

open Sys2Proof.Spec

/-- Settles O51: every instruction but CXNN commutes with a change of the random byte. -/
theorem onlyRandomInstructionReadsTheRandomByte : Obligations.OnlyRandomInstructionReadsTheRandomByte :=
  fun _ s rnd hi => exec_latchRnd s rnd hi

/-- Settles O8: taking the STEP changes neither FAULT nor the fetched word, so that its instruction runs. -/
theorem stepRunsTheDecodedInstruction : Obligations.StepRunsTheDecodedInstruction := by
  intro s i hd hf hok
  refine ⟨fun hnil => ?_, fun rnd rest hcons => ?_, fun rnd => ?_⟩
  · exact (step_of_inbox_nil hnil hf).trans (stepEffect_of_decode hf hok hd)
  · exact (step_of_inbox_cons hcons).trans (stepEffect_of_decode hf hok hd)
  · obtain ⟨t, ht⟩ := exec_total i (s.latchRnd rnd).advance
    exact ⟨t, (stepEffect_of_decode hf hok hd).trans ht, ht, response_step_eq rnd t⟩

/-- Settles O9: every transaction answers a next state, and none touches the inbox. -/
theorem stepPerformsTheHostsTransactions : Obligations.StepPerformsTheHostsTransactions := by
  intro s tr rest h
  obtain ⟨u, hu, hinbox⟩ := transact_total tr { s with env := { s.env with inbox := rest } }
  exact ⟨u, (step_of_inbox_cons h).trans hu, hu, hinbox⟩

/-- Settles O10: the fault is raised after the fetch advance, and its record steps back to the word's own address. -/
theorem illegalWordRaisesUnknownOpcode : Obligations.IllegalWordRaisesUnknownOpcode := by
  intro rnd s hf hok hd
  have hlatch := raiseFault_advance_latchesOnly .unknownOpcode s.fetchWord (s.latchRnd rnd)
  have hresp : response (.step rnd) (raiseFault .unknownOpcode s.fetchWord (s.latchRnd rnd).advance) = _ :=
    response_step_of_failed nofun
  rw [hlatch.1] at hresp
  exact ⟨_, (stepEffect_of_accessOk hf hok).trans (decodeExecute_of_error hd), hlatch, rfl, hresp⟩

/-- Settles O11: the halt check comes before the fetch, and before the step where the inbox is empty. -/
theorem haltedStepChangesNothing : Obligations.HaltedStepChangesNothing := by
  intro rnd s hf
  refine ⟨stepEffect_of_halted hf, response_step_of_failed hf, fun rest hcons => ?_, fun hnil => ?_⟩
  · exact (step_of_inbox_cons hcons).trans (stepEffect_of_halted hf)
  · exact step_of_inbox_nil_of_failed hnil hf

/-- Settles O60: SET_KEY writes one element of KEY; the other transactions are as their rules say. -/
theorem keyInputAndReadsActOnTheirOwnPiece : Obligations.KeyInputAndReadsActOnTheirOwnPiece := by
  intro s
  refine ⟨fun k p => ⟨setKeyEffect k p s, rfl, rfl, fun j => setKeyEffect_keys_get k j p s⟩, rfl, ?_⟩
  exact ⟨rfl, rfl, rfl, rfl, rfl, rfl, rfl, rfl⟩

end Sys2Proof.Machine
end

section
/-! PROOF. The opcode map's rows of formats B and R as rules about words: the word that a row's operands are read from is the
word their instruction encodes to, so it decodes to that instruction (R82, R83, R86). -/

namespace Sys2Proof

open Sys2Proof.Spec

variable {p w : Word}

/-! The digits that the statements read a word by are the decoder's fields (R81). -/

theorem digitX_eq_xField (w : Word) : digitX w = xField w := Fin.ext (xField_val w).symm

theorem digitY_eq_yField (w : Word) : digitY w = yField w := Fin.ext (yField_val w).symm

theorem byteNN_eq_nnField (w : Word) : byteNN w = nnField w := by
  apply BitVec.eq_of_toNat_eq
  rw [nnField_toNat, byteNN, BitVec.toNat_ofNat]
  exact Nat.mod_mod _ _

/-! The word of a row is the format of its own digits (R82). -/

theorem formatB_digitX_byteNN {op : BitVec 4} (hp : p.toNat = op.toNat * 4096) (h : w &&& 0xF000#16 = p) :
    formatB op (digitX w) (byteNN w) = w := by
  rw [and_F000_iff, hp] at h
  rw [digitX_eq_xField, byteNN_eq_nnField]
  exact formatB_xField (by rw [opField_eq]; omega) rfl

theorem formatR_digitX_digitY {op n : BitVec 4} (hp : p.toNat = op.toNat * 4096 + n.toNat) (h : w &&& 0xF00F#16 = p) :
    formatR op (digitX w) (digitY w) n = w := by
  have := n.isLt
  rw [and_F00F_iff, hp] at h
  rw [digitX_eq_xField, digitY_eq_yField]
  exact formatR_xField_yField (by rw [opField_eq]; omega) (by rw [nField_eq]; omega)

theorem rowDecodes_of_encode {mask : Word} {f : Word → Instr} (hwf : ∀ w, (f w).wellFormed = true)
    (he : ∀ w, w &&& mask = p → encode (f w) = w) : RowDecodes mask p f :=
  fun w h => (congrArg decode (he w h)).symm.trans (decode_encode (hwf w))

/-- A row of format B, whose operands are X and NN. -/
theorem rowDecodes_formatB {f : RegIdx → Byte → Instr} (op : BitVec 4) (hp : p.toNat = op.toNat * 4096)
    (hwf : ∀ x nn, (f x nn).wellFormed = true) (he : ∀ x nn, encode (f x nn) = formatB op x nn) :
    RowDecodes 0xF000 p (fun w => f (digitX w) (byteNN w)) :=
  rowDecodes_of_encode (fun _ => hwf _ _) fun _ h => (he _ _).trans (formatB_digitX_byteNN hp h)

/-- A row of format R, whose operands are X and Y, with the function nibble `n`. -/
theorem rowDecodes_formatR {f : RegIdx → RegIdx → Instr} (op n : BitVec 4) (hp : p.toNat = op.toNat * 4096 + n.toNat)
    (hwf : ∀ x y, (f x y).wellFormed = true) (he : ∀ x y, encode (f x y) = formatR op x y n) :
    RowDecodes 0xF00F p (fun w => f (digitX w) (digitY w)) :=
  rowDecodes_of_encode (fun _ => hwf _ _) fun _ h => (he _ _).trans (formatR_digitX_digitY hp h)

end Sys2Proof
end

section
/-! PROOF. The ALU's results and flags as numbers (R130, R132). -/

namespace Sys2Proof.Machine

variable (a b : Byte)

theorem aluAdd_toNat : (aluAdd a b).toNat = (a.toNat + b.toNat) % 256 := BitVec.toNat_ofNat _ _

theorem aluSub_toNat : (aluSub a b).toNat = (256 + a.toNat - b.toNat) % 256 := by
  rw [aluSub, BitVec.toNat_ofNat, Nat.add_comm]

theorem aluShr_toNat : (aluShr a).toNat = a.toNat / 2 := by simp [aluShr, Nat.shiftRight_eq_div_pow]

theorem aluShl_toNat : (aluShl a).toNat = 2 * a.toNat % 256 := by simp [aluShl, Nat.shiftLeft_eq, Nat.mul_comm]

theorem flagByte_toNat (c : Bool) : (flagByte c).toNat = c.toNat := by cases c <;> rfl

theorem flagByte_decide (c : Prop) [Decidable c] : flagByte (decide c) = if c then 0x01 else 0x00 := by
  by_cases hc : c <;> simp [flagByte, hc]

theorem shiftOutRight_toNat : (shiftOutRight a).toNat = a.toNat % 2 := by
  rw [shiftOutRight, flagByte_toNat, BitVec.getLsbD, Nat.toNat_testBit, pow_zero, Nat.div_one]

theorem shiftOutLeft_toNat : (shiftOutLeft a).toNat = a.toNat / 128 := by
  have := a.isLt
  rw [shiftOutLeft, flagByte_toNat, BitVec.getLsbD, Nat.toNat_testBit]
  omega

/-! What 8XY5 writes to VF (R141). -/

theorem subFlagWrite_of_lt (p : SubFlag) {a b : Byte} (h : b.toNat < a.toNat) : subFlagWrite p a b = some 0x01 := if_pos h

theorem subFlagWrite_unchanged_of_le {a b : Byte} (h : a.toNat ≤ b.toNat) : subFlagWrite .unchanged a b = none :=
  if_neg h.not_gt

theorem subFlagWrite_zero_of_le {a b : Byte} (h : a.toNat ≤ b.toNat) : subFlagWrite .zero a b = some 0x00 :=
  if_neg h.not_gt

/-! The random byte's mask (R145). -/

/-- A byte within a mask is one the mask leaves as it is. -/
theorem and_not_eq_zero_iff (nn : Byte) : b &&& ~~~nn = 0 ↔ b &&& nn = b := by
  constructor
  · intro h
    calc b &&& nn = (b &&& nn) ||| (b &&& ~~~nn) := by rw [h]; exact (BitVec.or_zero).symm
      _ = b := by rw [← BitVec.and_or_distrib_left, BitVec.or_not_self, BitVec.and_allOnes]
  · intro h
    rw [← h, BitVec.and_assoc, BitVec.and_not_self]
    exact BitVec.and_zero

end Sys2Proof.Machine
end

section
/-! PROOF. A completed instruction that writes V registers only: what it leaves in its destination and in VF, and its frame
(R22, R116, R131). -/

namespace Sys2Proof.Machine

open Sys2Proof.Spec

/-- When only registers differ, the frame is that of the registers that differ. -/
theorem changesOnly_of_reg {regs : List RegIdx} {s t : State} (ht : t = { s with v := t.v })
    (h : ∀ r, r ∉ regs → t.reg r = s.reg r) : ChangesOnly regs [] s (t.setMode .running) := by
  rw [ht] at h ⊢
  exact ⟨h, fun _ => rfl, fun _ => rfl, fun _ => ⟨rfl, rfl⟩, fun _ => rfl, fun _ => rfl, fun _ => ⟨rfl, rfl⟩,
    fun _ _ => rfl, rfl, rfl, rfl, rfl⟩

variable (s : State) (x : RegIdx) (b : Byte)

theorem exists_complete_setReg :
    ∃ t, complete (s.setReg x b) = .next t ∧ t.reg x = b ∧ ChangesOnly [x] [] s t := by
  refine ⟨_, rfl, by simp, changesOnly_of_reg rfl fun r hr => ?_⟩
  rw [setReg_reg, if_neg (by simpa using hr)]

theorem exists_complete_setFlagThenReg (f : Option Byte) :
    ∃ t, complete (s.setFlagThenReg f x b) = .next t ∧ ChangesOnly [x, 15] [] s t ∧ t.reg x = b ∧
      (x ≠ 15 → t.reg 15 = f.getD (s.reg 15)) := by
  refine ⟨_, rfl, changesOnly_of_reg (setFlagThenReg_eq s f x b) fun r hr => ?_, ?_, complete_flag rfl⟩
  · obtain ⟨hx, h15⟩ : r ≠ x ∧ r ≠ 15 := by simpa using hr
    rw [setFlagThenReg_reg, if_neg hx, if_neg h15]
  · rw [setMode_reg, setFlagThenReg_reg, if_pos rfl]

end Sys2Proof.Machine
end

section
/-! PROOF. The statements of the ALU's family, each from the lemmas above. -/

namespace Sys2Proof.Machine

open Sys2Proof.Spec

/-- Settles O15: both write a register and no flag. -/
theorem loadImmediateAndCopyRegister : Obligations.LoadImmediateAndCopyRegister :=
  ⟨rowDecodes_formatB 0x6 rfl (fun _ _ => rfl) fun _ _ => rfl,
    rowDecodes_formatR 0x8 0x0 rfl (fun _ _ => rfl) fun _ _ => rfl,
    fun s x y nn => ⟨exists_complete_setReg s x nn, exists_complete_setReg s x (s.reg y)⟩⟩

/-- Settles O16: one register is written, with the ALU's sum. -/
theorem addImmediateWrapsWithoutFlag : Obligations.AddImmediateWrapsWithoutFlag := by
  refine ⟨rowDecodes_formatB 0x7 rfl (fun _ _ => rfl) fun _ _ => rfl, fun s x nn => ?_⟩
  obtain ⟨t, ht, hx, hframe⟩ := exists_complete_setReg s x (aluAdd (s.reg x) nn)
  exact ⟨t, ht, hx ▸ aluAdd_toNat _ _, hframe⟩

/-- Settles O17: one register is written, with the bitwise result. -/
theorem logicOperationsAreBitwise : Obligations.LogicOperationsAreBitwise := by
  refine ⟨rowDecodes_formatR 0x8 0x1 rfl (fun _ _ => rfl) fun _ _ => rfl,
    rowDecodes_formatR 0x8 0x2 rfl (fun _ _ => rfl) fun _ _ => rfl,
    rowDecodes_formatR 0x8 0x3 rfl (fun _ _ => rfl) fun _ _ => rfl, fun s x y => ⟨?_, ?_, ?_⟩⟩
  · obtain ⟨t, ht, hx, hframe⟩ := exists_complete_setReg s x (s.reg x ||| s.reg y)
    exact ⟨t, ht, hframe, fun k _ => hx ▸ BitVec.getLsbD_or⟩
  · obtain ⟨t, ht, hx, hframe⟩ := exists_complete_setReg s x (s.reg x &&& s.reg y)
    exact ⟨t, ht, hframe, fun k _ => hx ▸ BitVec.getLsbD_and⟩
  · obtain ⟨t, ht, hx, hframe⟩ := exists_complete_setReg s x (s.reg x ^^^ s.reg y)
    exact ⟨t, ht, hframe, fun k _ => hx ▸ BitVec.getLsbD_xor⟩

/-- Settles O18: the carry and then the sum are written. -/
theorem addRegistersSetsCarry : Obligations.AddRegistersSetsCarry := by
  refine ⟨rowDecodes_formatR 0x8 0x4 rfl (fun _ _ => rfl) fun _ _ => rfl, fun s x y => ?_⟩
  obtain ⟨t, ht, hframe, hx, hflag⟩ :=
    exists_complete_setFlagThenReg s x (aluAdd (s.reg x) (s.reg y)) (some (carryFlag (s.reg x) (s.reg y)))
  exact ⟨t, ht, hframe, hx ▸ aluAdd_toNat _ _, fun h => (hflag h).trans (flagByte_decide _)⟩

/-- Settles O19: what the parameter says is written to VF, if anything, and then the difference. -/
theorem subtractWritesFlagByParameter : Obligations.SubtractWritesFlagByParameter := by
  refine ⟨rowDecodes_formatR 0x8 0x5 rfl (fun _ _ => rfl) fun _ _ => rfl, fun s x y => ?_⟩
  obtain ⟨t, ht, hframe, hx, hflag⟩ := exists_complete_setFlagThenReg s x (aluSub (s.reg x) (s.reg y))
    (subFlagWrite s.env.params.subFlag8XY5 (s.reg x) (s.reg y))
  refine ⟨t, ht, hframe, hx ▸ aluSub_toNat _ _, fun h hlt => ?_, fun h hle => ⟨fun hp => ?_, fun hp => ?_⟩⟩ <;>
    rw [hflag h]
  · rw [subFlagWrite_of_lt _ hlt, Option.getD_some]
  · rw [hp, subFlagWrite_unchanged_of_le hle, Option.getD_none]
  · rw [hp, subFlagWrite_zero_of_le hle, Option.getD_some]

/-- Settles O20: the flag of no borrow and then the reverse difference are written, on both branches. -/
theorem reverseSubtractSetsNoBorrow : Obligations.ReverseSubtractSetsNoBorrow := by
  refine ⟨rowDecodes_formatR 0x8 0x7 rfl (fun _ _ => rfl) fun _ _ => rfl, fun s x y => ?_⟩
  obtain ⟨t, ht, hframe, hx, hflag⟩ :=
    exists_complete_setFlagThenReg s x (aluSub (s.reg y) (s.reg x)) (some (noBorrowFlag (s.reg y) (s.reg x)))
  exact ⟨t, ht, hframe, hx ▸ aluSub_toNat _ _, fun h => (hflag h).trans (flagByte_decide _)⟩

/-- Settles O21: the bit shifted out and then the half are written. -/
theorem shiftRightMovesBitZeroOut : Obligations.ShiftRightMovesBitZeroOut := by
  refine ⟨rowDecodes_formatR 0x8 0x6 rfl (fun _ _ => rfl) fun _ _ => rfl, fun s x y => ?_⟩
  obtain ⟨t, ht, hframe, hx, hflag⟩ :=
    exists_complete_setFlagThenReg s x (aluShr (s.reg x)) (some (shiftOutRight (s.reg x)))
  exact ⟨t, ht, hframe, hx ▸ aluShr_toNat _, fun h => hflag h ▸ shiftOutRight_toNat _⟩

/-- Settles O22: the bit shifted out and then the double are written. -/
theorem shiftLeftMovesBitSevenOut : Obligations.ShiftLeftMovesBitSevenOut := by
  refine ⟨rowDecodes_formatR 0x8 0xE rfl (fun _ _ => rfl) fun _ _ => rfl, fun s x y => ?_⟩
  obtain ⟨t, ht, hframe, hx, hflag⟩ :=
    exists_complete_setFlagThenReg s x (aluShl (s.reg x)) (some (shiftOutLeft (s.reg x)))
  exact ⟨t, ht, hframe, hx ▸ aluShl_toNat _, fun h => hflag h ▸ shiftOutLeft_toNat _⟩

/-- CXNN leaves the STEP's random byte under the mask in its destination (R104, R145). -/
theorem exec_rnd_reg {s t : State} {x : RegIdx} {nn rnd : Byte} (h : exec (.rnd x nn) (s.latchRnd rnd) = .next t) :
    t.reg x = rnd &&& nn := by
  rw [complete_next h, setMode_reg, setReg_reg, if_pos rfl, latchRnd_env]

/-- Settles O23: a byte within the mask is reached with itself as the random byte, and no other byte passes the mask. -/
theorem randomByteIsMaskedAndFree : Obligations.RandomByteIsMaskedAndFree := by
  refine ⟨rowDecodes_formatB 0xC rfl (fun _ _ => rfl) fun _ _ => rfl, fun s x nn => ⟨fun rnd => ?_, fun b => ?_⟩⟩
  · exact exists_complete_setReg (s.latchRnd rnd) x (rnd &&& nn)
  · rw [and_not_eq_zero_iff]
    constructor
    · intro hb
      obtain ⟨t, ht⟩ := exec_total (.rnd x nn) (s.latchRnd b)
      exact ⟨b, t, ht, (exec_rnd_reg ht).trans hb⟩
    · rintro ⟨rnd, t, ht, rfl⟩
      rw [exec_rnd_reg ht, BitVec.and_assoc, BitVec.and_self]

end Sys2Proof.Machine
end

section
/-! PROOF. The opcode map's rows of format A, and the row of 00EE, as rules about words (R82, R83, R86). -/

namespace Sys2Proof

open Sys2Proof.Spec

variable {p w : Word}

theorem addrNNN_eq_nnnField (w : Word) : addrNNN w = nnnField w := by
  apply BitVec.eq_of_toNat_eq
  rw [nnnField_toNat, addrNNN, BitVec.toNat_ofNat]
  omega

theorem formatA_addrNNN {op : BitVec 4} (hp : p.toNat = op.toNat * 4096) (h : w &&& 0xF000#16 = p) :
    formatA op (addrNNN w) = w := by
  rw [and_F000_iff, hp] at h
  rw [addrNNN_eq_nnnField]
  exact formatA_nnnField (by rw [opField_eq]; omega)

/-- A row of format A, whose operand is NNN. -/
theorem rowDecodes_formatA {f : Word → Instr} (op : BitVec 4) (hp : p.toNat = op.toNat * 4096)
    (hwf : ∀ a, (f a).wellFormed = addrFits a) (he : ∀ a, encode (f a) = formatA op a) :
    RowDecodes 0xF000 p (fun w => f (addrNNN w)) :=
  rowDecodes_of_encode (fun w => (hwf _).trans (addrNNN_eq_nnnField w ▸ addrFits_nnnField w))
    fun _ h => (he _).trans (formatA_addrNNN hp h)

/-- A row that fixes every digit has one word. -/
theorem rowDecodes_full {i : Instr} (hwf : i.wellFormed = true) (he : encode i = p) :
    RowDecodes 0xFFFF p (fun _ => i) :=
  rowDecodes_of_encode (fun _ => hwf) fun w h => he.trans ((and_FFFF_iff w p).mp h).symm

end Sys2Proof
end

section
/-! PROOF. A completed instruction that writes pc and the stack only: its frame, and what jumps, skips, calls and
returns leave (R112, R160 to R169). -/

namespace Sys2Proof.Machine

open Sys2Proof.Spec

/-- When only pc and the stack differ, the frame is that of the ones that differ. -/
theorem changesOnly_of_pc_stack {ps : List Piece} {s t : State}
    (ht : t = { s with pc := t.pc, sp := t.sp, stack := t.stack })
    (hpc : .pc ∉ ps → t.pc = s.pc) (hstack : .stack ∉ ps → t.sp = s.sp ∧ t.stack = s.stack) :
    ChangesOnly [] ps s (t.setMode .running) := by
  rw [ht] at hpc hstack ⊢
  exact ⟨fun _ _ => rfl, fun _ => rfl, hpc, hstack, fun _ => rfl, fun _ => rfl, fun _ => ⟨rfl, rfl⟩,
    fun _ _ => rfl, rfl, rfl, rfl, rfl⟩

variable (s : State)

theorem exists_complete_setPc (w : Word) :
    ∃ t, complete (s.setPc w) = .next t ∧ t.pc = w ∧ ChangesOnly [] [.pc] s t :=
  ⟨_, rfl, rfl, changesOnly_of_pc_stack rfl (absurd (by simp)) fun _ => ⟨rfl, rfl⟩⟩

/-- A skip adds 2 to pc modulo 2^16 when its condition holds (R112). -/
theorem exists_skipIf (c : Prop) [Decidable c] :
    ∃ t, skipIf (decide c) s = .next t ∧ ChangesOnly [] [.pc] s t ∧
      t.pc.toNat = if c then (s.pc.toNat + 2) % 65536 else s.pc.toNat := by
  by_cases hc : c
  · obtain ⟨t, ht, hpc, hframe⟩ := exists_complete_setPc s (s.pc + 2)
    refine ⟨t, ?_, hframe, ?_⟩
    · rw [decide_eq_true hc]; exact ht
    · rw [hpc, if_pos hc]; exact BitVec.toNat_add _ _
  · obtain ⟨t, ht, hpc, hframe⟩ := exists_complete_setPc s s.pc
    refine ⟨t, ?_, hframe, ?_⟩
    · rw [decide_eq_false hc]; exact ht
    · rw [hpc, if_neg hc]

/-- The skip on the opposite condition. -/
theorem exists_skipIf_not (c : Prop) [Decidable c] :
    ∃ t, skipIf (decide (¬ c)) s = .next t ∧ ChangesOnly [] [.pc] s t ∧
      t.pc.toNat = if c then s.pc.toNat else (s.pc.toNat + 2) % 65536 := by
  simpa only [ite_not] using exists_skipIf s (¬ c)

/-- The offset jump from a 12-bit address cannot leave 16 bits, so nothing is masked (R169). -/
theorem offsetTarget_toNat {addr : Word} (h : addr.toNat < 4096) (o : Byte) :
    (offsetTarget addr o).toNat = addr.toNat + o.toNat := by
  have ho := o.isLt
  rw [offsetTarget, BitVec.toNat_add, BitVec.toNat_setWidth]
  omega

variable {s}

/-- A return from the state a call leaves, whatever its pc, ends in the caller's state but for the entry at SP, which is
stale again and holds the popped address (R162, R164). -/
theorem exec_ret_after_call {addr p : Word} {t : State} (h : s.sp.val < 16) (ht : exec (.call addr) s = .next t) :
    exec .ret (t.setPc p) = complete (s.setStack (s.stack.set s.sp.val s.pc h) s.sp) := by
  rw [exec_call_of_room h] at ht
  rw [complete_next ht, exec_ret_of_pos (Nat.succ_pos s.sp.val)]
  have htop : (s.stack.set s.sp.val s.pc h)[s.sp.val] = s.pc := Vector.getElem_set_self h
  exact congrArg (fun w => complete ((s.setStack (s.stack.set s.sp.val s.pc h) s.sp).setPc w)) htop

end Sys2Proof.Machine
end

section
/-! PROOF. The statements of control transfer and the call stack, each from the lemmas above. -/

namespace Sys2Proof.Machine

open Sys2Proof.Spec

/-- Settles O29: the return undoes the call but for the entry at SP, which is not live. -/
theorem returnUndoesCall : Obligations.ReturnUndoesCall := by
  intro s addr p h
  obtain ⟨t, ht⟩ := exec_total (.call addr) s
  refine ⟨t, _, ht, exec_ret_after_call h ht, rfl, rfl, fun k hk => ?_, ?_⟩
  · exact Vector.getElem?_set_ne h (Nat.ne_of_gt hk)
  · exact changesOnly_of_pc_stack rfl (fun _ => rfl) (absurd (by simp))

/-- Settles O25: pc is written with the operand. -/
theorem jumpSetsPc : Obligations.JumpSetsPc :=
  ⟨rowDecodes_formatA 0x1 rfl (fun _ => rfl) fun _ => rfl, exists_complete_setPc⟩

/-- Settles O26: pc is written with the unmasked sum. -/
theorem offsetJumpIsNotMasked : Obligations.OffsetJumpIsNotMasked := by
  refine ⟨rowDecodes_formatA 0xB rfl (fun _ => rfl) fun _ => rfl, fun s addr h => ?_⟩
  obtain ⟨t, ht, hpc, hframe⟩ := exists_complete_setPc s (offsetTarget addr (s.reg 0))
  exact ⟨t, ht, hpc ▸ offsetTarget_toNat h _, hframe⟩

/-- Settles O27: a push writes the one entry at SP, and a full stack raises the fault. -/
theorem callPushesOrOverflows : Obligations.CallPushesOrOverflows := by
  refine ⟨rowDecodes_formatA 0x2 rfl (fun _ => rfl) fun _ => rfl, fun s addr => ⟨fun h => ?_, fun h => ?_⟩⟩
  · refine ⟨_, exec_call_of_room h, rfl, rfl, Vector.getElem?_set_self h, fun k hk => ?_, ?_⟩
    · exact Vector.getElem?_set_ne h hk.symm
    · exact changesOnly_of_pc_stack rfl (absurd (by simp)) (absurd (by simp))
  · exact ⟨_, exec_call_of_full (by omega), rfl, raiseFault_latchesOnly _ _ s⟩

/-- Settles O28: a pop moves SP and reads the entry below it, and an empty stack raises the fault. -/
theorem returnPopsOrUnderflows : Obligations.ReturnPopsOrUnderflows := by
  refine ⟨rowDecodes_full rfl rfl, fun s => ⟨fun h => ?_, fun h => ?_⟩⟩
  · refine ⟨_, exec_ret_of_pos h, rfl, (Vector.getElem?_eq_getElem _).symm, rfl, ?_⟩
    exact changesOnly_of_pc_stack rfl (absurd (by simp)) (absurd (by simp))
  · exact ⟨_, exec_ret_of_empty (by omega), rfl, raiseFault_latchesOnly _ _ s⟩

/-- Settles O32: both are skips, on the one condition and on its opposite. -/
theorem skipOnImmediate : Obligations.SkipOnImmediate :=
  ⟨rowDecodes_formatB 0x3 rfl (fun _ _ => rfl) fun _ _ => rfl,
    rowDecodes_formatB 0x4 rfl (fun _ _ => rfl) fun _ _ => rfl,
    fun s x nn => ⟨exists_skipIf s (s.reg x = nn), exists_skipIf_not s (s.reg x = nn)⟩⟩

/-- Settles O33: both are skips, on the one condition and on its opposite. -/
theorem skipOnRegisters : Obligations.SkipOnRegisters :=
  ⟨rowDecodes_formatR 0x5 0x0 rfl (fun _ _ => rfl) fun _ _ => rfl,
    rowDecodes_formatR 0x9 0x0 rfl (fun _ _ => rfl) fun _ _ => rfl,
    fun s x y => ⟨exists_skipIf s (s.reg x = s.reg y), exists_skipIf_not s (s.reg x = s.reg y)⟩⟩

end Sys2Proof.Machine
end

section
/-! PROOF. The opcode map's rows of format K as rules about words (R82, R83, R86). -/

namespace Sys2Proof

open Sys2Proof.Spec

variable {p w : Word}

theorem formatB_digitX {op : BitVec 4} {fn : Byte} (hp : p.toNat = op.toNat * 4096 + fn.toNat)
    (h : w &&& 0xF0FF#16 = p) : formatB op (digitX w) fn = w := by
  have := fn.isLt
  rw [and_F0FF_iff, hp] at h
  rw [digitX_eq_xField]
  exact formatB_xField (by rw [opField_eq]; omega) (by rw [nnField_toNat]; omega)

/-- A row of format K, whose operand is X, with the function byte `fn`. -/
theorem rowDecodes_formatK {f : RegIdx → Instr} (op : BitVec 4) (fn : Byte) (hp : p.toNat = op.toNat * 4096 + fn.toNat)
    (hwf : ∀ x, (f x).wellFormed = true) (he : ∀ x, encode (f x) = formatB op x fn) :
    RowDecodes 0xF0FF p (fun w => f (digitX w)) :=
  rowDecodes_of_encode (fun _ => hwf _) fun _ h => (he _).trans (formatB_digitX hp h)

end Sys2Proof
end

section
/-! PROOF. The index register's new values and the decimal digits as numbers (R182, R183, R184), and what the instructions
that write I, store a block or load one leave: the bytes moved, and the frame (R181 to R186). -/

namespace Sys2Proof.Machine

open Sys2Proof.Spec

/-! Operands. -/

theorem indexPlus_toNat (i : Word) (b : Byte) : (indexPlus i b).toNat = (i.toNat + b.toNat) % 65536 := by
  rw [indexPlus, BitVec.toNat_add, BitVec.toNat_setWidth_of_le (by decide)]

/-- The last glyph begins at 0x09B, so a glyph's address is not reduced (R56, R183). -/
theorem glyphAddr_toNat (b : Byte) : (glyphAddr b).toNat = 0x050 + 5 * (b.toNat % 16) := by
  rw [glyphAddr, BitVec.toNat_ofNat, Config.fontBase]
  omega

theorem bcdDigits_length (b : Byte) : (bcdDigits b).length = 3 := rfl

/-- Each of the three digits fits a byte (R184). -/
theorem bcdDigits_map_toNat (b : Byte) :
    (bcdDigits b).map BitVec.toNat = [b.toNat / 100, b.toNat / 10 % 10, b.toNat % 10] := by
  have := b.isLt
  simp only [bcdDigits, List.map_cons, List.map_nil, BitVec.toNat_ofNat, List.cons.injEq, and_true]
  omega

/-! A write of I. -/

variable (s : State)

theorem exists_complete_setI (w : Word) :
    ∃ t, complete (s.setI w) = .next t ∧ t.i = w ∧ ChangesOnly [] [.index] s t :=
  ⟨_, rfl, rfl, fun _ _ => rfl, absurd (by simp), fun _ => rfl, fun _ => ⟨rfl, rfl⟩, fun _ => rfl, fun _ => rfl,
    fun _ => ⟨rfl, rfl⟩, fun _ _ => rfl, rfl, rfl, rfl, rfl⟩

/-! A store of a block. -/

theorem changesOnly_memWriteBytes (base : Nat) (bytes : List Byte) :
    ChangesOnly [] [.memory] s ((s.memWriteBytes base bytes).setMode .running) :=
  ⟨fun _ _ => rfl, fun _ => rfl, fun _ => rfl, fun _ => ⟨rfl, rfl⟩, fun _ => rfl, fun _ => rfl, fun _ => ⟨rfl, rfl⟩,
    absurd (by simp), rfl, rfl, rfl, rfl⟩

variable {s}

/-- FX33 completes with its store when the address unit refuses none of its accesses (R184). -/
theorem exec_ldBcd_of_accessOk {x : RegIdx} (h : AccessOk s s.i.toNat 3) :
    exec (.ldBcd x) s = .next ((s.memWriteBytes s.i.toNat (bcdDigits (s.reg x))).setMode .running) :=
  guardData_of_none (firstOutOfRange_of_accessOk h) _

/-- The store of the digits of `b` leaves the k-th of them in the cell k after the base (R184). -/
theorem memWriteBytes_bcdDigits_cell (hm : MemoryOk s) (base : Nat) (b : Byte) {k : Nat} (hk : k < 3) :
    ((s.memWriteBytes base (bcdDigits b)).cell (addrOf (base + k))).toNat =
      [b.toNat / 100, b.toNat / 10 % 10, b.toNat % 10][k] := by
  rw [memWriteBytes_cell_inside s hm base (bcdDigits b) (by rw [bcdDigits_length]; decide) k hk]
  simp only [← bcdDigits_map_toNat]
  exact (List.getElem_map _).symm

/-- The store of V[0] to V[x] leaves every cell outside the block as it was (R185). -/
theorem memWriteBytes_regsUpTo_cell_other (hm : MemoryOk s) (base : Nat) {x : RegIdx} {a : Nat}
    (ha : ∀ r : RegIdx, r ≤ x → addrOf (base + r.val) ≠ a) :
    (s.memWriteBytes base (s.regsUpTo x)).cell a = s.cell a := by
  refine memWriteBytes_cell_other s hm base _ a fun k hk => ?_
  rw [regsUpTo_length] at hk
  exact ha ⟨k, by omega⟩ (Nat.le_of_lt_succ hk)

/-! A load of a block. -/

/-- FX65 completes with its load when the address unit refuses none of its accesses (R186). -/
theorem exec_loadRegs_of_accessOk {x : RegIdx} (h : AccessOk s s.i.toNat (x.val + 1)) :
    exec (.loadRegs x) s = .next ((s.setRegs (s.memReadBytes s.i.toNat (x.val + 1))).setMode .running) :=
  guardData_of_none (firstOutOfRange_of_accessOk h) _

@[simp] theorem memReadBytes_length (s : State) (base n : Nat) : (s.memReadBytes base n).length = n :=
  Memory.readBytes_length _ _ _ _

theorem memReadBytes_get (base n k : Nat) (hk : k < (s.memReadBytes base n).length) :
    (s.memReadBytes base n)[k] = s.cell (addrOf (base + k)) :=
  (List.getElem_eq_iff hk).mpr (Memory.readBytes_get _ _ _ _ _ (memReadBytes_length s base n ▸ hk))

/-- V[r] after a load of V[0] to V[x] (R186). -/
theorem setRegs_memReadBytes_reg (base : Nat) (x r : RegIdx) :
    (s.setRegs (s.memReadBytes base (x.val + 1))).reg r =
      if r ≤ x then s.cell (addrOf (base + r.val)) else s.reg r := by
  simp only [setRegs_reg, memReadBytes_get, memReadBytes_length, dite_eq_ite, Nat.lt_succ_iff, Fin.le_def]

/-- A glyph's first cell lies in the font, so that its byte is FONT's while the font is in place (R56, R183). -/
theorem cell_glyphAddr (hfont : ∀ k : Fin 80, s.cell (0x050 + k.val) = s.env.params.font[k]) (b : Byte) :
    some (s.cell (addrOf (glyphAddr b).toNat)) = s.env.params.font[5 * (b.toNat % 16)]? := by
  have hlt : 5 * (b.toNat % 16) < 80 := by omega
  rw [glyphAddr_toNat, addrOf_of_lt (by omega), Vector.getElem?_eq_getElem hlt]
  exact congrArg some (hfont ⟨_, hlt⟩)

end Sys2Proof.Machine
end

section
/-! PROOF. The statements of the index register and memory instructions, each from the lemmas above. -/

namespace Sys2Proof.Machine

open Sys2Proof.Spec

/-- Settles O37: FX29 leaves the glyph's address in I, and FX65 loads V0 from it. No access fails, whatever ADDR_OOB is, since
the address lies in the font. -/
theorem glyphAddressReadsTheFont : Obligations.GlyphAddressReadsTheFont := by
  intro s x hfont
  have hok : AccessOk (s.setI (glyphAddr (s.reg x))) (glyphAddr (s.reg x)).toNat 1 :=
    .inr (.inr (by rw [glyphAddr_toNat]; omega))
  refine ⟨_, _, rfl, exec_loadRegs_of_accessOk (x := 0) hok, ?_⟩
  rw [setMode_reg, setRegs_memReadBytes_reg, if_pos (le_refl 0)]
  exact cell_glyphAddr hfont (s.reg x)

/-- Settles O38: three cells are written, with the three digits. -/
theorem bcdStoresThreeDigits : Obligations.BcdStoresThreeDigits := by
  refine ⟨rowDecodes_formatK 0xF 0x33 rfl (fun _ => rfl) fun _ => rfl, fun s x hm hok => ?_⟩
  refine ⟨_, exec_ldBcd_of_accessOk hok, changesOnly_memWriteBytes s _ _, ?_, ?_, ?_, fun a ha => ?_⟩
  · exact memWriteBytes_bcdDigits_cell hm s.i.toNat (s.reg x) (k := 0) (by decide)
  · exact memWriteBytes_bcdDigits_cell hm s.i.toNat (s.reg x) (k := 1) (by decide)
  · exact memWriteBytes_bcdDigits_cell hm s.i.toNat (s.reg x) (k := 2) (by decide)
  · exact memWriteBytes_cell_other s hm _ _ a ha

/-- Settles O39: the block is written with the registers in order. -/
theorem storeRegistersWritesTheBlock : Obligations.StoreRegistersWritesTheBlock :=
  ⟨rowDecodes_formatK 0xF 0x55 rfl (fun _ => rfl) fun _ => rfl, fun s _ hm hok =>
    ⟨_, exec_storeRegs_of_accessOk hok, changesOnly_memWriteBytes s _ _,
      fun _ hr => memWriteBytes_regsUpTo_cell hm _ hr, fun _ ha => memWriteBytes_regsUpTo_cell_other hm _ ha⟩⟩

/-- Settles O40: the registers up to V[x] are written with the block, and nothing else is. -/
theorem loadRegistersReadsTheBlock : Obligations.LoadRegistersReadsTheBlock :=
  ⟨rowDecodes_formatK 0xF 0x65 rfl (fun _ => rfl) fun _ => rfl, fun _ x hok =>
    ⟨_, exec_loadRegs_of_accessOk hok, changesOnly_of_reg rfl fun r hr => absurd (List.mem_finRange r) hr,
      setRegs_memReadBytes_reg _ x⟩⟩

/-- Settles O34: I is written with the operand. -/
theorem loadIndexSetsI : Obligations.LoadIndexSetsI :=
  ⟨rowDecodes_formatA 0xA rfl (fun _ => rfl) fun _ => rfl, exists_complete_setI⟩

/-- Settles O35: I is written with the sum, and no register is written. -/
theorem addToIndexWrapsWithoutFlag : Obligations.AddToIndexWrapsWithoutFlag := by
  refine ⟨rowDecodes_formatK 0xF 0x1E rfl (fun _ => rfl) fun _ => rfl, fun s x => ?_⟩
  obtain ⟨t, ht, hi, hframe⟩ := exists_complete_setI s (indexPlus s.i (s.reg x))
  exact ⟨t, ht, hi ▸ indexPlus_toNat _ _, hframe⟩

/-- Settles O36: I is written with the glyph's address. -/
theorem fontGlyphIsOfTheLowDigit : Obligations.FontGlyphIsOfTheLowDigit := by
  refine ⟨rowDecodes_formatK 0xF 0x29 rfl (fun _ => rfl) fun _ => rfl, fun s x => ?_⟩
  obtain ⟨t, ht, hi, hframe⟩ := exists_complete_setI s (glyphAddr (s.reg x))
  exact ⟨t, ht, hi ▸ glyphAddr_toNat _, hframe⟩

end Sys2Proof.Machine
end

section
/-! PROOF. The opcode map's row of format D as a rule about words (R82, R83, R86). -/

namespace Sys2Proof

open Sys2Proof.Spec

variable {p w : Word}

theorem digitN_eq_nField (w : Word) : digitN w = nField w := (nField_eq w).symm

theorem formatR_digitX_digitY_digitN {op : BitVec 4} (hp : p.toNat = op.toNat * 4096) (h : w &&& 0xF000#16 = p) :
    formatR op (digitX w) (digitY w) (BitVec.ofNat 4 (digitN w)) = w := by
  rw [and_F000_iff, hp] at h
  rw [digitX_eq_xField, digitY_eq_yField]
  refine formatR_xField_yField (by rw [opField_eq]; omega) ?_
  rw [BitVec.toNat_ofNat, digitN, nField_eq]
  exact (Nat.mod_mod _ _).symm

theorem rowDecodes_drw : RowDecodes 0xF000 0xD000 (fun w => .drw (digitX w) (digitY w) (digitN w)) :=
  rowDecodes_of_encode (fun w => digitN_eq_nField w ▸ rowsFit_nField w)
    fun _ h => formatR_digitX_digitY_digitN rfl h

end Sys2Proof
end

section
/-! PROOF. Where a sprite bit lands (R202), and that two bits of one sprite never land on one pixel (R201): the sprite is
smaller than the grid. -/

namespace Sys2Proof.Machine

open Sys2Proof.Spec

variable {edge : DrawEdge} {px py px' py' : Nat} {row : Fin 32} {col : Fin 64}

/-- The model's Pos and Visible are the statement's (R202). -/
theorem pixelAt_eq_some_iff : pixelAt edge px py = some (row, col) ↔ LandsOn edge px py row col := by
  cases edge with
  | wrap => simp [pixelAt, LandsOn, Fin.ext_iff, eq_comm]
  | clip =>
    have := row.isLt
    have := col.isLt
    simp only [pixelAt, LandsOn, Option.dite_none_right_eq_some, Option.some.injEq, Prod.mk.injEq, Fin.ext_iff]
    constructor
    · rintro ⟨-, hrow, hcol⟩
      exact ⟨hrow.symm, hcol.symm⟩
    · rintro ⟨hrow, hcol⟩
      exact ⟨by omega, hrow.symm, hcol.symm⟩

/-- Under DRAW_EDGE = wrap every position is visible (R202). -/
theorem exists_landsOn_wrap (px py : Nat) : ∃ row col, LandsOn .wrap px py row col :=
  ⟨⟨py % 32, Nat.mod_lt _ (by decide)⟩, ⟨px % 64, Nat.mod_lt _ (by decide)⟩, rfl, rfl⟩

/-- Positions that land on one pixel agree modulo the grid, whatever the edge parameter is (R202). -/
theorem landsOn_mod_eq (h : LandsOn edge px py row col) (h' : LandsOn edge px' py' row col) :
    px % 64 = px' % 64 ∧ py % 32 = py' % 32 := by
  cases edge <;> obtain ⟨hrow, hcol⟩ := h <;> obtain ⟨hrow', hcol'⟩ := h' <;> omega

/-- One of the set bits among columns c, …, c + k − 1 of a sprite byte drawn on row py lands on the pixel (R203). -/
def BitsLandOn (edge : DrawEdge) (cx py : Nat) (b : Byte) (c k : Nat) (row : Fin 32) (col : Fin 64) : Prop :=
  ∃ j < k, b.getLsbD (7 - (c + j)) = true ∧ LandsOn edge (cx + (c + j)) py row col

/-- A set bit of one of `n` sprite bytes from `base` on, drawn from row py down, lands on the pixel (R203). -/
def RowsLandOn (s : State) (edge : DrawEdge) (cx py base n : Nat) (row : Fin 32) (col : Fin 64) : Prop :=
  ∃ r < n, BitsLandOn edge cx (py + r) (s.cell (addrOf (base + r))) 0 8 row col

theorem bitsLandOn_succ {cx c k : Nat} {b : Byte} :
    BitsLandOn edge cx py b c (k + 1) row col ↔
      (b.getLsbD (7 - c) = true ∧ LandsOn edge (cx + c) py row col) ∨
        BitsLandOn edge cx py b (c + 1) k row col := by
  simp only [BitsLandOn, Nat.exists_lt_succ_left, Nat.add_zero, Nat.add_assoc, Nat.add_comm 1]

theorem rowsLandOn_succ {s : State} {cx base n : Nat} :
    RowsLandOn s edge cx py base (n + 1) row col ↔
      BitsLandOn edge cx py (s.cell (addrOf base)) 0 8 row col ∨
        RowsLandOn s edge cx (py + 1) (base + 1) n row col := by
  simp only [RowsLandOn, Nat.exists_lt_succ_left, Nat.add_zero, Nat.add_assoc, Nat.add_comm 1]

/-- The statement's covered pixels are the ones DXYN's rows land on. -/
theorem spriteCovers_eq (s : State) (x y : RegIdx) (rows : Nat) :
    SpriteCovers s x y rows =
      RowsLandOn s s.env.params.drawEdge (s.reg x).toNat (s.reg y).toNat s.i.toNat rows := by
  funext row col
  simp only [RowsLandOn, BitsLandOn, SpriteCovers, SpriteBit, Nat.zero_add]

/-- A byte's bits lie in different columns. -/
theorem not_bitsLandOn_of_landsOn {cx c k : Nat} {b : Byte} (hk : c + (k + 1) ≤ 8)
    (h : LandsOn edge (cx + c) py row col) : ¬ BitsLandOn edge cx py b (c + 1) k row col := by
  rintro ⟨j, hj, -, h'⟩
  have := (landsOn_mod_eq h h').1
  omega

/-- A sprite's bytes lie in different rows. -/
theorem not_rowsLandOn_of_bitsLandOn {s : State} {cx base n : Nat} {b : Byte} (hn : n < 32)
    (h : BitsLandOn edge cx py b 0 8 row col) : ¬ RowsLandOn s edge cx (py + 1) base n row col := by
  obtain ⟨_, -, -, hl⟩ := h
  rintro ⟨r, hr, _, -, -, hl'⟩
  have := (landsOn_mod_eq hl hl').2
  omega

end Sys2Proof.Machine
end

section
/-! PROOF. A draw in progress as a set of pixels flipped, each once: draws of disjoint sets compose (R201). -/

namespace Sys2Proof.Machine

open Sys2Proof.Spec

/-- From draw `d` to draw `e` the pixels of `P` are flipped, every other is as it was, and `hit` is set where one of them was
1 (R201). -/
structure Flips (P : Fin 32 → Fin 64 → Prop) (d e : Draw) : Prop where
  inside : ∀ row col, P row col → pixel e.1 row col = !pixel d.1 row col
  outside : ∀ row col, ¬ P row col → pixel e.1 row col = pixel d.1 row col
  hit : e.2 = true ↔ d.2 = true ∨ ∃ row col, P row col ∧ pixel d.1 row col = true

variable {P Q R : Fin 32 → Fin 64 → Prop} {d e f : Draw}

theorem Flips.refl (hP : ∀ row col, ¬ P row col) (d : Draw) : Flips P d d where
  inside row col h := absurd h (hP row col)
  outside _ _ _ := rfl
  hit := by simp [hP]

theorem Flips.trans (h : Flips P d e) (h' : Flips Q e f) (hdisj : ∀ row col, P row col → ¬ Q row col)
    (hR : ∀ row col, R row col ↔ P row col ∨ Q row col) : Flips R d f where
  inside row col hr := by
    rcases (hR row col).mp hr with hp | hq
    · rw [h'.outside row col (hdisj row col hp), h.inside row col hp]
    · rw [h'.inside row col hq, h.outside row col fun hp => hdisj row col hp hq]
  outside row col hr := by
    obtain ⟨hp, hq⟩ := not_or.mp ((hR row col).not.mp hr)
    rw [h'.outside row col hq, h.outside row col hp]
  hit := by
    have hsame : ∀ row col, Q row col → pixel e.1 row col = pixel d.1 row col :=
      fun row col hq => h.outside row col fun hp => hdisj row col hp hq
    have hQ : (∃ row col, Q row col ∧ pixel e.1 row col = true) ↔ ∃ row col, Q row col ∧ pixel d.1 row col = true :=
      exists₂_congr fun row col => and_congr_right fun hq => by rw [hsame row col hq]
    simp only [h'.hit, h.hit, hQ, hR, or_and_right, exists_or, or_assoc]

/-- Flipping one set of pixels twice restores the screen. -/
theorem Flips.fb_eq_of_twice {f g k : Framebuffer} {a b a' b' : Bool} (h : Flips P (f, a) (g, b))
    (h' : Flips P (g, a') (k, b')) : k = f := by
  refine framebuffer_ext fun row col => ?_
  by_cases hp : P row col
  · rw [h'.inside row col hp, h.inside row col hp, Bool.not_not]
  · rw [h'.outside row col hp, h.outside row col hp]

/-! The model's loops. -/

variable {edge : DrawEdge} {cx py : Nat}

theorem flips_composeBit (d : Draw) :
    Flips (LandsOn edge cx py) d (composeBit edge cx py d) where
  inside row col h := by rw [pixel_composeBit, if_pos (pixelAt_eq_some_iff.mpr h)]
  outside row col h := by rw [pixel_composeBit, if_neg (pixelAt_eq_some_iff.not.mpr h)]
  hit := by simp only [hit_composeBit, pixelAt_eq_some_iff]

/-- A sprite bit that is 0 leaves the draw as it is (R201). -/
theorem flips_composeBit_if (bit : Bool) (d : Draw) :
    Flips (fun row col => bit = true ∧ LandsOn edge cx py row col) d (if bit then composeBit edge cx py d else d) := by
  cases bit with
  | false => exact .refl (by simp) d
  | true => simpa using flips_composeBit d

theorem flips_composeBits {b : Byte} {c k : Nat} (hk : c + k ≤ 8) (d : Draw) :
    Flips (BitsLandOn edge cx py b c k) d (composeBits edge cx py b c k d) := by
  induction k generalizing c d with
  | zero => exact .refl (by simp [BitsLandOn]) d
  | succ k ih =>
    exact (flips_composeBit_if _ d).trans (ih (by omega) _)
      (fun row col h => not_bitsLandOn_of_landsOn hk h.2) fun row col => bitsLandOn_succ

theorem flips_composeRows {s : State} {base n : Nat} (hn : n ≤ 32) (d : Draw) :
    Flips (RowsLandOn s edge cx py base n) d (composeRows edge cx py (s.memReadBytes base n) d) := by
  induction n generalizing py base d with
  | zero => exact .refl (by simp [RowsLandOn]) d
  | succ n ih =>
    exact (flips_composeBits (by decide) d).trans (ih (by omega) _)
      (fun row col => not_rowsLandOn_of_bitsLandOn hn) fun row col => rowsLandOn_succ

/-- The draw of DXYN flips the pixels its sprite covers (R201). -/
theorem flips_spriteDraw {rows : Nat} (hrows : rows < 16) (s : State) (x y : RegIdx) :
    Flips (SpriteCovers s x y rows) (s.fb, false) (s.spriteDraw x y rows) := by
  rw [spriteCovers_eq]
  exact flips_composeRows (by omega) _

end Sys2Proof.Machine
end

section
/-! PROOF. What 00E0 and DXYN leave: the screen, VF and the frame (R200, R201, R204). -/

namespace Sys2Proof.Machine

open Sys2Proof.Spec

theorem flagByte_eq_one_iff {b : Bool} : flagByte b = 0x01 ↔ b = true := by cases b <;> decide

theorem flagByte_eq_zero_iff {b : Bool} : flagByte b = 0x00 ↔ ¬ b = true := by cases b <;> decide

/-- When only registers, FB and REDRAW differ, the frame is that of the registers that differ and the screen. -/
theorem changesOnly_of_reg_screen {regs : List RegIdx} {s t : State}
    (ht : t = { s with v := t.v, fb := t.fb, redraw := t.redraw }) (h : ∀ r, r ∉ regs → t.reg r = s.reg r) :
    ChangesOnly regs [.screen] s (t.setMode .running) := by
  rw [ht] at h ⊢
  exact ⟨h, fun _ => rfl, fun _ => rfl, fun _ => ⟨rfl, rfl⟩, fun _ => rfl, fun _ => rfl, absurd (by simp),
    fun _ _ => rfl, rfl, rfl, rfl, rfl⟩

/-- The state DXYN completes in: the draw's pixels and then its hit are written (R201). -/
def drawn (s : State) (x y : RegIdx) (rows : Nat) : State :=
  ((s.setScreen (s.spriteDraw x y rows).1).setReg flagReg (flagByte (s.spriteDraw x y rows).2)).setMode .running

variable {s : State} {x y : RegIdx} {rows : Nat}

/-- DXYN completes when the address unit refuses none of its accesses (R201). -/
theorem exec_drw_of_accessOk (h : AccessOk s s.i.toNat rows) : exec (.drw x y rows) s = .next (drawn s x y rows) :=
  guardData_of_none (firstOutOfRange_of_accessOk h) _

theorem drawn_flag : (drawn s x y rows).reg 15 = flagByte (s.spriteDraw x y rows).2 := by
  rw [drawn, setMode_reg, setReg_reg, if_pos rfl]

theorem drawn_changesOnly : ChangesOnly [15] [.screen] s (drawn s x y rows) := by
  refine changesOnly_of_reg_screen rfl fun r hr => ?_
  rw [setReg_reg, if_neg (by simpa using hr)]
  rfl

/-- VF is set exactly when a covered pixel was 1 (R201). -/
theorem spriteDraw_hit_iff (hrows : rows < 16) :
    (s.spriteDraw x y rows).2 = true ↔ ∃ row col, SpriteCovers s x y rows row col ∧ pixel s.fb row col = true := by
  simpa using (flips_spriteDraw hrows s x y).hit

/-- With the registers restored, nothing a sprite is drawn from has changed, so a second draw flips the same pixels. -/
theorem flips_spriteDraw_again (hrows : rows < 16) :
    Flips (SpriteCovers s x y rows) ((s.spriteDraw x y rows).1, false)
      ({ drawn s x y rows with v := s.v }.spriteDraw x y rows) :=
  flips_spriteDraw hrows { drawn s x y rows with v := s.v } x y

/-- The second draw collides exactly when the first turned a pixel on (R201, log 19). -/
theorem spriteDraw_again_hit_iff (hrows : rows < 16) :
    ({ drawn s x y rows with v := s.v }.spriteDraw x y rows).2 = true ↔
      ∃ row col, SpriteCovers s x y rows row col ∧ pixel s.fb row col = false := by
  have hfirst := flips_spriteDraw hrows s x y
  rw [(flips_spriteDraw_again hrows).hit, or_iff_right Bool.false_ne_true]
  exact exists₂_congr fun row col => and_congr_right fun hc => by rw [hfirst.inside row col hc, Bool.not_eq_true']

/-- Under DRAW_EDGE = wrap a set bit covers a pixel (R202). -/
theorem exists_spriteCovers_of_wrap (hedge : s.env.params.drawEdge = .wrap)
    (hbit : ∃ r < rows, ∃ c < 8, SpriteBit s r c) : ∃ row col, SpriteCovers s x y rows row col := by
  obtain ⟨r, hr, c, hc, hset⟩ := hbit
  obtain ⟨row, col, hland⟩ := exists_landsOn_wrap ((s.reg x).toNat + c) ((s.reg y).toNat + r)
  exact ⟨row, col, r, hr, c, hc, hset, hedge ▸ hland⟩

end Sys2Proof.Machine
end

section
/-! PROOF. The statements of the framebuffer writer, each from the lemmas above. -/

namespace Sys2Proof.Machine

open Sys2Proof.Spec

/-- Settles O44: the sprite's bits land on different pixels, so that each covered pixel is flipped once. -/
theorem drawFlipsExactlyTheSpritesPixels : Obligations.DrawFlipsExactlyTheSpritesPixels := by
  refine ⟨rowDecodes_drw, fun s x y rows hrows hok => ?_⟩
  have hflips := flips_spriteDraw hrows s x y
  refine ⟨_, exec_drw_of_accessOk hok, drawn_changesOnly, rfl, fun row col => ⟨?_, ?_⟩, fun hhit => ?_, fun hhit => ?_⟩
  · exact hflips.inside row col
  · exact hflips.outside row col
  · rw [drawn_flag, flagByte_eq_one_iff]
    exact (spriteDraw_hit_iff hrows).mpr hhit
  · rw [drawn_flag, flagByte_eq_zero_iff]
    exact (spriteDraw_hit_iff hrows).not.mpr hhit

/-- Settles O45: both draws flip the same pixels, so the second finds each of them as the first did not. -/
theorem drawingTwiceRestoresTheScreen : Obligations.DrawingTwiceRestoresTheScreen := by
  intro s x y rows hrows hok
  have hsecond := spriteDraw_again_hit_iff (s := s) (x := x) (y := y) hrows
  refine ⟨_, _, exec_drw_of_accessOk hok, exec_drw_of_accessOk hok, ?_, ?_, fun hedge hclear hbit => ?_⟩
  · exact (flips_spriteDraw hrows s x y).fb_eq_of_twice (flips_spriteDraw_again hrows)
  · rw [drawn_flag, flagByte_eq_one_iff]
    exact hsecond
  · rw [drawn_flag, flagByte_eq_zero_iff, spriteDraw_hit_iff hrows] at hclear
    rw [drawn_flag, flagByte_eq_one_iff, hsecond]
    obtain ⟨row, col, hcover⟩ := exists_spriteCovers_of_wrap (x := x) (y := y) hedge hbit
    exact ⟨row, col, hcover, Bool.not_eq_true _ ▸ fun hset => hclear ⟨row, col, hcover, hset⟩⟩

/-- Settles O43: the blank screen is written with REDRAW, and no register is. -/
theorem clearScreenBlanksEveryPixel : Obligations.ClearScreenBlanksEveryPixel :=
  ⟨rowDecodes_full rfl rfl, fun _ =>
    ⟨_, rfl, changesOnly_of_reg_screen rfl fun _ _ => rfl, rfl, pixel_blankScreen⟩⟩

end Sys2Proof.Machine
end

section
/-! PROOF. What the key test and the search for the lowest held key answer (R222, R226), what a completed write of a timer
leaves, and what a STEP returns that latched no fault (R105). -/

namespace Sys2Proof.Machine

open Sys2Proof.Spec

variable (s : State)

/-! The key test. -/

/-- A value of 0x10 or more is outside KEY, so that no such key is held (R226, D10). -/
theorem held_eq_decide (b : Byte) : s.held b = decide (s.keys[b.toNat]? = some true) := by
  by_cases h : b.toNat < 16
  · simp [State.held, h]
  · simp [State.held, h]

theorem exec_skp_eq (x : RegIdx) :
    exec (.skp x) s = skipIf (decide (s.keys[(s.reg x).toNat]? = some true)) s :=
  congrArg (skipIf · s) (held_eq_decide s (s.reg x))

theorem exec_sknp_eq (x : RegIdx) :
    exec (.sknp x) s = skipIf (decide (¬ s.keys[(s.reg x).toNat]? = some true)) s := by
  rw [decide_not, ← held_eq_decide]
  rfl

/-- The pc a skip leaves, as a word (R112). -/
theorem exists_skipIf_pc (c : Prop) [Decidable c] :
    ∃ t, skipIf (decide c) s = .next t ∧ ChangesOnly [] [.pc] s t ∧ t.pc = if c then s.pc + 2 else s.pc := by
  obtain ⟨t, ht, hframe, -⟩ := exists_skipIf s c
  refine ⟨t, ht, hframe, ?_⟩
  rw [skipIf_next ht, setMode_pc, setPc_pc]
  simp only [decide_eq_true_eq]

variable {s}

/-! The lowest held key. -/

/-- The search goes through the keys in ascending order (R222). -/
theorem lowestHeld_eq_some {k : KeyIdx} (hk : s.keys[k] = true) (hlow : ∀ j, j < k → s.keys[j] = false) :
    s.lowestHeld = some k := by
  rw [State.lowestHeld, List.find?_eq_some_iff_getElem]
  refine ⟨hk, k.val, by simp, by simp, fun j hj => ?_⟩
  simpa using hlow ⟨j, by omega⟩ hj

theorem lowestHeld_eq_none (h : ∀ k : KeyIdx, s.keys[k] = false) : s.lowestHeld = none :=
  List.find?_eq_none.mpr fun k _ => Bool.not_eq_true _ ▸ h k

/-- FX0A writes the lowest held key's number (R222). -/
theorem exec_ldKey_of_held {x : RegIdx} {k : KeyIdx} (h : s.lowestHeld = some k) :
    exec (.ldKey x) s = complete (s.setReg x (BitVec.ofNat 8 k.val)) := by
  simp only [exec, execLdKey, h]

/-- FX0A with no key held steps back to be fetched again (R117, R222). -/
theorem exec_ldKey_of_none {x : RegIdx} (h : s.lowestHeld = none) : exec (.ldKey x) s = await s.refetch := by
  simp only [exec, execLdKey, h]

theorem keyIdx_byte_toNat (k : KeyIdx) : (BitVec.ofNat 8 k.val).toNat = k.val := by
  rw [BitVec.toNat_ofNat]
  omega

/-- A STEP that left no fault latched returns Ok, in whatever MODE it ended (R105). -/
theorem response_step_of_noFault {t : State} (h : t.fault.kind = .noFault) (rnd : Byte) : response (.step rnd) t = .ok :=
  (response_step_eq rnd t).trans (if_pos h)

/-! A write of a timer. -/

/-- When only DT and ST differ, the frame is that of the ones that differ. -/
theorem changesOnly_of_timers {ps : List Piece} {t : State} (ht : t = { s with dt := t.dt, st := t.st })
    (hdt : .delay ∉ ps → t.dt = s.dt) (hst : .sound ∉ ps → t.st = s.st) :
    ChangesOnly [] ps s (t.setMode .running) := by
  rw [ht] at hdt hst ⊢
  exact ⟨fun _ _ => rfl, fun _ => rfl, fun _ => rfl, fun _ => ⟨rfl, rfl⟩, hdt, hst, fun _ => ⟨rfl, rfl⟩,
    fun _ _ => rfl, rfl, rfl, rfl, rfl⟩

end Sys2Proof.Machine
end

section
/-! PROOF. The statements of the keypad and timer instructions, each from the lemmas above. -/

namespace Sys2Proof.Machine

open Sys2Proof.Spec

/-- Settles O47: the lowest held key is what the search finds, and FAULT is untouched on both branches. -/
theorem waitKeyTakesTheLowestHeldKey : Obligations.WaitKeyTakesTheLowestHeldKey := by
  refine ⟨rowDecodes_formatK 0xF 0x0A rfl (fun _ => rfl) fun _ => rfl,
    fun s x => ⟨fun k hk hlow => ?_, fun hnone => ?_⟩⟩
  · obtain ⟨t, ht, hx, hframe⟩ := exists_complete_setReg s x (BitVec.ofNat 8 k.val)
    have hfault : t.fault = s.fault := by rw [complete_next ht, setMode_fault, setReg_fault]
    exact ⟨t, (exec_ldKey_of_held (lowestHeld_eq_some hk hlow)).trans ht, hx ▸ keyIdx_byte_toNat k, hframe,
      fun hf => response_step_of_noFault (hfault ▸ hf)⟩
  · exact ⟨_, exec_ldKey_of_none (lowestHeld_eq_none hnone), rfl, response_step_of_noFault⟩

/-- Settles O46: both are skips, on the key test and on its opposite. -/
theorem skipOnKey : Obligations.SkipOnKey := by
  refine ⟨rowDecodes_formatK 0xE 0x9E rfl (fun _ => rfl) fun _ => rfl,
    rowDecodes_formatK 0xE 0xA1 rfl (fun _ => rfl) fun _ => rfl, fun s x => ⟨?_, ?_⟩⟩
  · rw [exec_skp_eq]
    exact exists_skipIf_pc s _
  · rw [exec_sknp_eq]
    simpa only [ite_not] using exists_skipIf_pc s (¬ s.keys[(s.reg x).toNat]? = some true)

/-- Settles O48: FX07 writes one register, and FX15 and FX18 one timer each. -/
theorem timerRegistersMove : Obligations.TimerRegistersMove := by
  refine ⟨rowDecodes_formatK 0xF 0x07 rfl (fun _ => rfl) fun _ => rfl,
    rowDecodes_formatK 0xF 0x15 rfl (fun _ => rfl) fun _ => rfl,
    rowDecodes_formatK 0xF 0x18 rfl (fun _ => rfl) fun _ => rfl, fun s x => ⟨?_, ?_, ?_⟩⟩
  · exact exists_complete_setReg s x s.dt
  · exact ⟨_, rfl, rfl, changesOnly_of_timers rfl (absurd (by simp)) fun _ => rfl⟩
  · exact ⟨_, rfl, rfl, changesOnly_of_timers rfl (fun _ => rfl) (absurd (by simp))⟩

end Sys2Proof.Machine
end

section
/-! PROOF. How a STEP comes to latch a fault (R51, R241, R244), and what LOAD leaves alone (R66). -/

namespace Sys2Proof.Machine

open Sys2Proof.Spec

variable {rnd : Byte} {s t : State}

theorem not_accessOk_iff {base n : Nat} :
    ¬ AccessOk s base n ↔ s.env.params.addrOob = .fault ∧ 0 < n ∧ 4096 < base + n := by
  cases hp : s.env.params.addrOob with
  | wrap => simp [AccessOk, hp]
  | fault => simp [AccessOk, hp, Nat.pos_iff_ne_zero]

/-- An instruction that leaves a fault where none was has raised it, with its own word (R241). -/
theorem exec_failed {i : Instr} (hf : s.fault.kind = .noFault) (h : exec i s = .next t) (ht : t.failed) :
    ∃ k, t = raiseFault k (encode i) s := by
  rcases exec_next_cases h with ⟨hfault, -⟩ | ⟨x, -, rfl⟩ | ⟨-, a, -, rfl⟩ | ⟨-, -, rfl⟩ | ⟨-, -, -, rfl⟩
  · exact absurd (hfault ▸ hf) ht
  · exact absurd hf ht
  all_goals exact ⟨_, rfl⟩

/-- A fault after the fetch is raised with the fetched word, illegal or decoded (R241, R244). -/
theorem decodeExecute_failed {w : Word} (hf : s.fault.kind = .noFault) (h : decodeExecute w s = .next t)
    (ht : t.failed) : ∃ k, t = raiseFault k w s := by
  cases hd : decode w with
  | ok i =>
    rw [decodeExecute_of_ok hd] at h
    exact encode_of_decode hd ▸ exec_failed hf h ht
  | error e =>
    rw [decodeExecute_of_error hd] at h
    cases h
    exact ⟨_, rfl⟩

/-- LOAD writes memory alone (R66). -/
theorem loadEffect_eq (image : List Byte) (s : State) :
    loadEffect image s = { s with mem := (loadEffect image s).mem } := by
  rw [loadEffect]
  split <;> rfl

end Sys2Proof.Machine
end

section
/-! PROOF. Runs of calls and of returns within the bounds of the stack, and the fault of one more (R160, R161, R242, R243). -/

namespace Sys2Proof.Machine

open Sys2Proof.Spec

variable {s t : State}

theorem callAll_cons {a : Word} {rest : List Word} (h : exec (.call a) s.advance = .next t) :
    callAll (a :: rest) s = callAll rest t := by
  simp only [callAll, h]

theorem retAll_succ {n : Nat} (h : exec .ret s.advance = .next t) : retAll (n + 1) s = retAll n t := by
  simp only [retAll, h]

theorem exists_call_of_room (a : Word) (h : s.sp.val < 16) :
    ∃ t, exec (.call a) s.advance = .next t ∧ t.sp.val = s.sp.val + 1 ∧ t.fault = s.fault :=
  ⟨_, exec_call_of_room (s := s.advance) h, rfl, rfl⟩

theorem exists_ret_of_pos (h : 0 < s.sp.val) :
    ∃ t, exec .ret s.advance = .next t ∧ t.sp.val = s.sp.val - 1 ∧ t.fault = s.fault :=
  ⟨_, exec_ret_of_pos (s := s.advance) h, rfl, rfl⟩

/-- As many calls as the stack has room for succeed, each one entry deeper (R160). -/
theorem exists_callAll_of_room (addrs : List Word) (h : s.sp.val + addrs.length ≤ 16) :
    ∃ t, callAll addrs s = .next t ∧ t.sp.val = s.sp.val + addrs.length ∧ t.fault = s.fault := by
  induction addrs generalizing s with
  | nil => exact ⟨s, rfl, rfl, rfl⟩
  | cons a rest ih =>
    rw [List.length_cons] at h ⊢
    obtain ⟨u, hu, husp, hufault⟩ := exists_call_of_room a (s := s) (by omega)
    obtain ⟨t, ht, htsp, htfault⟩ := ih (s := u) (by omega)
    exact ⟨t, (callAll_cons hu).trans ht, by omega, htfault.trans hufault⟩

/-- As many returns as the stack has entries succeed, each one entry less deep (R161). -/
theorem exists_retAll_of_le {n : Nat} (h : n ≤ s.sp.val) :
    ∃ t, retAll n s = .next t ∧ t.sp.val = s.sp.val - n ∧ t.fault = s.fault := by
  induction n generalizing s with
  | zero => exact ⟨s, rfl, rfl, rfl⟩
  | succ n ih =>
    obtain ⟨u, hu, husp, hufault⟩ := exists_ret_of_pos (s := s) (by omega)
    obtain ⟨t, ht, htsp, htfault⟩ := ih (s := u) (by omega)
    exact ⟨t, (retAll_succ hu).trans ht, by omega, htfault.trans hufault⟩

/-- A call on a full stack records its own address: the raise steps the fetch advance back (R241, R242). -/
theorem exists_call_overflow (addr : Word) (h : s.sp.val = 16) :
    ∃ u, exec (.call addr) s.advance = .next u ∧ u.fault.kind = .stackOverflow ∧ u.fault.pc = s.pc :=
  ⟨_, exec_call_of_full (by simp [h]), rfl, BitVec.add_sub_cancel s.pc 2⟩

theorem exists_ret_underflow (h : s.sp.val = 0) :
    ∃ u, exec .ret s.advance = .next u ∧ u.fault.kind = .stackUnderflow ∧ u.sp = s.sp :=
  ⟨_, exec_ret_of_empty (by simp [h]), rfl, rfl⟩

end Sys2Proof.Machine
end

section
/-! PROOF. The timers' count down as a subtraction that stops at 0, and ticks that add up (R252, R253). -/

namespace Sys2Proof.Machine

theorem countDown_toNat (n : Nat) (b : Byte) : (countDown n b).toNat = b.toNat - n := by
  have hb := b.isLt
  rw [countDown, BitVec.toNat_ofNat]
  omega

theorem countDown_countDown (m n : Nat) (b : Byte) : countDown n (countDown m b) = countDown (m + n) b := by
  rw [countDown, countDown_toNat, Nat.sub_sub, countDown]

theorem tickEffect_zero (s : State) : tickEffect 0 s = s := by
  simp [tickEffect, countDown]

theorem tickEffect_tickEffect (m n : Nat) (s : State) : tickEffect n (tickEffect m s) = tickEffect (m + n) s := by
  simp only [tickEffect, countDown_countDown]

/-- n ticks of one are a tick of n (R253). -/
theorem runTransactions_replicate_tick (n : Nat) (s : State) :
    runTransactions (List.replicate n (.tick 1)) s = .next (tickEffect n s) := by
  induction n generalizing s with
  | zero => rw [tickEffect_zero]; rfl
  | succ n ih =>
    have htail := ih (tickEffect 1 s)
    rwa [tickEffect_tickEffect, Nat.add_comm 1 n] at htail

end Sys2Proof.Machine
end

section
/-! PROOF. The statements of the exceptions' family, each from the lemmas above. -/

namespace Sys2Proof.Machine

open Sys2Proof.Spec

/-- Settles O12: a fault is raised at the fetch, or with the fetched word after the fetch advance. -/
theorem faultsArePrecise : Obligations.FaultsArePrecise := by
  intro rnd s t hf h ht
  by_cases hok : AccessOk s s.pc.toNat 2
  · obtain ⟨k, rfl⟩ :=
      decodeExecute_failed (s := (s.latchRnd rnd).advance) hf ((stepEffect_of_accessOk hf hok).symm.trans h) ht
    exact ⟨rfl, fun _ => raiseFault_advance_latchesOnly k _ (s.latchRnd rnd), absurd hok⟩
  · obtain ⟨hp, -, hlt⟩ := not_accessOk_iff.mp hok
    cases ((stepEffect_of_running hf).trans (cycle_of_outside hp hlt)).symm.trans h
    exact ⟨rfl, (absurd · hok), fun _ => raiseFetchFault_latchesOnly _ (s.latchRnd rnd)⟩

/-- Settles O13: a STEP of a halted core is stopped by the halt check, and of the other transactions each writes its own piece,
none of them FAULT. -/
theorem onlyResetLeavesTheHaltedState : Obligations.OnlyResetLeavesTheHaltedState := by
  intro tr s u hf h hne
  have htimers : s.dt ≠ s.dt ∨ s.st ≠ s.st → ∃ n, tr = .tick n := by simp
  cases tr with
  | reset => exact absurd rfl hne
  | load image =>
    cases h
    rw [loadEffect_eq]
    exact ⟨rfl, rfl, absurd rfl, htimers, absurd rfl, fun _ => ⟨image, rfl⟩⟩
  | setKey k p => cases h; exact ⟨rfl, rfl, fun _ => ⟨k, p, rfl⟩, htimers, absurd rfl, absurd rfl⟩
  | tick n => cases h; exact ⟨rfl, rfl, absurd rfl, fun _ => ⟨n, rfl⟩, absurd rfl, absurd rfl⟩
  | clearRedraw => cases h; exact ⟨rfl, rfl, absurd rfl, htimers, fun _ => rfl, absurd rfl⟩
  | step rnd =>
    cases (stepEffect_of_halted hf).symm.trans h
    exact ⟨rfl, rfl, absurd rfl, htimers, absurd rfl, absurd rfl⟩
  | readFb | readDt | readSt | readStatus =>
    cases h
    exact ⟨rfl, rfl, absurd rfl, htimers, absurd rfl, absurd rfl⟩

/-- Settles O30: sixteen calls fill the stack from empty, and one more finds it full. -/
theorem seventeenthCallOverflows : Obligations.SeventeenthCallOverflows := by
  refine ⟨fun _ => exists_call_overflow, fun s addrs addr h0 hlen => ?_⟩
  obtain ⟨t, ht, hsp, hfault⟩ := exists_callAll_of_room (s := s) addrs (by omega)
  have hfull : t.sp.val = 16 := by omega
  obtain ⟨u, hu⟩ := exists_call_overflow addr hfull
  exact ⟨t, u, ht, hfull, hfault, hu⟩

/-- Settles O31: sixteen returns empty the stack from full, and one more finds it empty. -/
theorem seventeenthReturnUnderflows : Obligations.SeventeenthReturnUnderflows := by
  refine ⟨fun s h0 => ?_, fun s h => ?_⟩
  · obtain ⟨u, hu, hkind, -⟩ := exists_ret_underflow h0
    exact ⟨u, hu, hkind⟩
  · obtain ⟨t, ht, hsp, hfault⟩ := exists_retAll_of_le (s := s) (n := 16) (by omega)
    have hempty : t.sp.val = 0 := by omega
    obtain ⟨u, hu, hkind, husp⟩ := exists_ret_underflow hempty
    exact ⟨t, u, ht, hempty, hfault, hu, hkind, husp ▸ hempty⟩

/-- Settles O59: a tick of n and n ticks of one end in the same state, whose timers are the subtraction that stops at 0. -/
theorem ticksAddUp : Obligations.TicksAddUp := by
  intro n s
  refine ⟨tickEffect n s, rfl, runTransactions_replicate_tick n s, ?_, ?_⟩
  · rw [tickEffect_dt, countDown_toNat]; omega
  · rw [tickEffect_st, countDown_toNat]; omega

/-- Settles O58: the count down by one is the subtraction that stops at 0, in either timer. -/
theorem tickCountsBothTimersDown : Obligations.TickCountsBothTimersDown := by
  intro s
  refine ⟨tickEffect 1 s, rfl, rfl, ?_, ?_⟩
  · rw [tickEffect_dt, countDown_toNat]; split <;> omega
  · rw [tickEffect_st, countDown_toNat]; split <;> omega

end Sys2Proof.Machine
end

section
/-! PROOF. Memory that lists no cell, as RESET leaves it (R38, R55, R56), and the STEP of a core with nothing loaded (R272). -/

namespace Sys2Proof.Machine

variable {s : State}

/-! The reset contents. -/

theorem resetByte_font (font : Vector Byte 80) (k : Fin 80) : resetByte font (0x050 + k.val) = font[k] := by
  simp [resetByte]

theorem resetByte_of_outside_font (font : Vector Byte 80) {a : Nat} (ha : a < 0x050 ∨ 0x09F < a) :
    resetByte font a = 0x00 := by
  have hout : ¬(0x050 ≤ a ∧ a - 0x050 < 80) := by omega
  exact dif_neg hout

theorem cell_of_mem_nil (hmem : s.mem = []) (a : Nat) : s.cell a = resetByte s.env.params.font a := by
  rw [State.cell, hmem, Memory.read]

/-! The STEP at RESET_PC, whatever the parameters are. -/

/-- The two cells at RESET_PC lie outside the font, so both are zero (R272). -/
theorem fetchWord_of_unloaded (hpc : s.pc = 0x0200) (hmem : s.mem = []) : s.fetchWord = 0x0000 := by
  have hzero (a : Nat) (ha : 0x09F < a) : s.cell a = 0x00 :=
    (cell_of_mem_nil hmem a).trans (resetByte_of_outside_font _ (.inr ha))
  apply BitVec.eq_of_toNat_eq
  rw [fetchWord_toNat, hpc, hzero (addrOf _) (by decide), hzero (addrOf _) (by decide)]
  rfl

/-- The zero word is illegal, so the STEP raises UnknownOpcode (R113, R272). -/
theorem exists_stepEffect_of_unloaded (rnd : Byte) (hf : s.fault.kind = .noFault) (hpc : s.pc = 0x0200)
    (hmem : s.mem = []) :
    ∃ t, stepEffect rnd s = .next t ∧ t.pc = 0x0202 ∧
      t.fault = { kind := .unknownOpcode, pc := 0x0200, opcode := 0x0000 } := by
  have hword := fetchWord_of_unloaded hpc hmem
  have hillegal : decode s.fetchWord = .error (.unknownOpcode s.fetchWord) := by rw [hword]; rfl
  obtain ⟨t, ht, ⟨hfault, -, -, hadvance, -⟩, -⟩ :=
    illegalWordRaisesUnknownOpcode rnd s hf (.inr (.inr (by rw [hpc]; decide))) hillegal
  rw [hpc] at hadvance
  rw [hpc, hword] at hfault
  exact ⟨t, ht, hadvance, hfault⟩

end Sys2Proof.Machine
end

section
/-! PROOF. The statements of the reset's family, each from the lemmas above. -/

namespace Sys2Proof.Machine

/-- Settles O55: RESET lists no cell, so memory reads as the reset contents, and every other element is State.reset's. -/
theorem resetLeavesTheResetValues : Obligations.ResetLeavesTheResetValues := by
  intro s
  have hcell := cell_of_mem_nil (s := resetEffect s) rfl
  refine ⟨resetEffect s, rfl, fun x => ?v, rfl, rfl, rfl, fun k => ?stack, rfl, rfl, fun row col => ?fb, rfl,
    fun k => ?keys, rfl, rfl, fun k => ?font, fun a ha => ?zero, rfl⟩
  case font => exact (hcell _).trans (resetByte_font _ k)
  case zero => exact (hcell a).trans (resetByte_of_outside_font _ ha)
  case v => simp [State.reg, State.reset]
  case stack | fb | keys => simp [State.reset]

/-- Settles O56: the reset state holds the zero word at RESET_PC, and its inbox is empty, so that the machine's first step is a
STEP too. -/
theorem unloadedCoreFaultsAtOnce : Obligations.UnloadedCoreFaultsAtOnce := by
  refine ⟨fun rnd => exists_stepEffect_of_unloaded rnd rfl rfl rfl, ?_⟩
  rw [step_of_inbox_nil rfl rfl]
  exact exists_stepEffect_of_unloaded _ rfl rfl rfl

end Sys2Proof.Machine
end
